-- ==== Sys2Proof/Word.lean ====
section
/-!
DEFINITION. The word types of the niosii-aic23 control core (spec 00_scope.md R2, R4).
Every value is an unsigned bit vector or a natural number; nothing is signed (R4).
-/

namespace Sys2Proof

/-- A Register Word as stored, `WORD_W` = 16 bits (R2, R20). -/
abbrev Word := BitVec 16

/-- A command word, `CMD_W` = 24 bits (R70). -/
abbrev CmdWord := BitVec 24

/-- The `op` field of a command word (R70). -/
abbrev Opcode := BitVec 8

/-- A register address as sent on the bus, `ADDR_W` = 7 bits (R2, R77). -/
abbrev BusAddr := BitVec 7

/-- A register word as sent on the bus, `DATA_W` = 9 bits (R2, R77). -/
abbrev BusWord := BitVec 9

/-- The frame of one Bus Transaction, `FRAME_W` = 16 bits (R2, R77). -/
abbrev Frame := BitVec 16

end Sys2Proof
end

