-- ==== Sys2Proof/Syntax.lean ====
section
/-!
DEFINITION. The command set of the core: one constructor per row of spec/opcode_table.json (spec 30_encoding.md R70, R73).
Every command carries its 16-bit `arg`, also where R71 says that it is ignored, so that no bit of a command word is lost.
-/

namespace Sys2Proof

/-- A command. The operand is the field `arg` of the command word, unsigned, 16 bits (R71). -/
inductive Instr where
  | init (arg : Word)
  | read (arg : Word)
  | setLineInputLeftVolume (arg : Word)
  | setLineInputRightVolume (arg : Word)
  | setLineInputLeftSimultaneousUpdate (arg : Word)
  | setLineInputRightSimultaneousUpdate (arg : Word)
  | setLineInputLeftMute (arg : Word)
  | setLineInputRightMute (arg : Word)
  | setHeadphoneLeftVolume (arg : Word)
  | setHeadphoneRightVolume (arg : Word)
  | setHeadphoneLeftZeroCross (arg : Word)
  | setHeadphoneRightZeroCross (arg : Word)
  | setHeadphoneLeftSimultaneousUpdate (arg : Word)
  | setHeadphoneRightSimultaneousUpdate (arg : Word)
  | setSidetoneEnable (arg : Word)
  | setSidetoneLevel (arg : Word)
  | setDacInputSelect (arg : Word)
  | setAnalogBypass (arg : Word)
  | setInputSelect (arg : Word)
  | setMicMute (arg : Word)
  | setMicBoost (arg : Word)
  | setDacMute (arg : Word)
  | setDeemphasisMode (arg : Word)
  | setAdcHighpassFilter (arg : Word)
  | powerOn (arg : Word)
  | powerOff (arg : Word)
  | setInterfaceMode (arg : Word)
  | setLeftRightSwap (arg : Word)
  | setBitClockPhase (arg : Word)
  | setSampleWidth (arg : Word)
  | setDataFormat (arg : Word)
  | setClockIn (arg : Word)
  | setClockOut (arg : Word)
  | setSampleRateCode (arg : Word)
  | setOversamplingRatio (arg : Word)
  | setClockMode (arg : Word)
  | busEnable (arg : Word)
  | busDisable (arg : Word)
deriving DecidableEq, Repr

end Sys2Proof
end

