-- ==== Sys2Proof/Decode.lean ====
section
/-!
DEFINITION. Command words (spec 30_encoding.md R70 to R75): the decoder, total on all 24-bit words, and the encoder.
The tables below are written from R73.
-/

namespace Sys2Proof

/-- Why a command word selects no command (R74): its `op` value is reserved. -/
inductive DecodeError where
  /-- The reserved `op` value; the core answers it with `ErrIllegal` (R201). -/
  | reserved (op : Opcode)
deriving DecidableEq, Repr

/-- `op = cmd_word[23:16]` (R70). -/
def opField (w : CmdWord) : Opcode := w.extractLsb' 16 8

/-- `arg = cmd_word[15:0]` (R70). -/
def argField (w : CmdWord) : Word := w.extractLsb' 0 16

/-- The command a word selects, or the name of its rejection. Decoding reads `op` only (R72); the map is R73, and every
other `op` is reserved (R74). -/
def decode (w : CmdWord) : Except DecodeError Instr :=
  match (opField w).toNat with
  | 0x01 => .ok (.init (argField w))
  | 0x02 => .ok (.read (argField w))
  | 0x10 => .ok (.setLineInputLeftVolume (argField w))
  | 0x11 => .ok (.setLineInputRightVolume (argField w))
  | 0x12 => .ok (.setLineInputLeftSimultaneousUpdate (argField w))
  | 0x13 => .ok (.setLineInputRightSimultaneousUpdate (argField w))
  | 0x14 => .ok (.setLineInputLeftMute (argField w))
  | 0x15 => .ok (.setLineInputRightMute (argField w))
  | 0x16 => .ok (.setHeadphoneLeftVolume (argField w))
  | 0x17 => .ok (.setHeadphoneRightVolume (argField w))
  | 0x18 => .ok (.setHeadphoneLeftZeroCross (argField w))
  | 0x19 => .ok (.setHeadphoneRightZeroCross (argField w))
  | 0x1A => .ok (.setHeadphoneLeftSimultaneousUpdate (argField w))
  | 0x1B => .ok (.setHeadphoneRightSimultaneousUpdate (argField w))
  | 0x20 => .ok (.setSidetoneEnable (argField w))
  | 0x21 => .ok (.setSidetoneLevel (argField w))
  | 0x22 => .ok (.setDacInputSelect (argField w))
  | 0x23 => .ok (.setAnalogBypass (argField w))
  | 0x24 => .ok (.setInputSelect (argField w))
  | 0x25 => .ok (.setMicMute (argField w))
  | 0x26 => .ok (.setMicBoost (argField w))
  | 0x28 => .ok (.setDacMute (argField w))
  | 0x29 => .ok (.setDeemphasisMode (argField w))
  | 0x2A => .ok (.setAdcHighpassFilter (argField w))
  | 0x30 => .ok (.powerOn (argField w))
  | 0x31 => .ok (.powerOff (argField w))
  | 0x38 => .ok (.setInterfaceMode (argField w))
  | 0x39 => .ok (.setLeftRightSwap (argField w))
  | 0x3A => .ok (.setBitClockPhase (argField w))
  | 0x3B => .ok (.setSampleWidth (argField w))
  | 0x3C => .ok (.setDataFormat (argField w))
  | 0x40 => .ok (.setClockIn (argField w))
  | 0x41 => .ok (.setClockOut (argField w))
  | 0x42 => .ok (.setSampleRateCode (argField w))
  | 0x43 => .ok (.setOversamplingRatio (argField w))
  | 0x44 => .ok (.setClockMode (argField w))
  | 0x48 => .ok (.busEnable (argField w))
  | 0x49 => .ok (.busDisable (argField w))
  | _ => .error (.reserved (opField w))

/-- The `op` value of a command (R73). -/
def Instr.opcode : Instr → Opcode
  | .init _ => 0x01#8
  | .read _ => 0x02#8
  | .setLineInputLeftVolume _ => 0x10#8
  | .setLineInputRightVolume _ => 0x11#8
  | .setLineInputLeftSimultaneousUpdate _ => 0x12#8
  | .setLineInputRightSimultaneousUpdate _ => 0x13#8
  | .setLineInputLeftMute _ => 0x14#8
  | .setLineInputRightMute _ => 0x15#8
  | .setHeadphoneLeftVolume _ => 0x16#8
  | .setHeadphoneRightVolume _ => 0x17#8
  | .setHeadphoneLeftZeroCross _ => 0x18#8
  | .setHeadphoneRightZeroCross _ => 0x19#8
  | .setHeadphoneLeftSimultaneousUpdate _ => 0x1A#8
  | .setHeadphoneRightSimultaneousUpdate _ => 0x1B#8
  | .setSidetoneEnable _ => 0x20#8
  | .setSidetoneLevel _ => 0x21#8
  | .setDacInputSelect _ => 0x22#8
  | .setAnalogBypass _ => 0x23#8
  | .setInputSelect _ => 0x24#8
  | .setMicMute _ => 0x25#8
  | .setMicBoost _ => 0x26#8
  | .setDacMute _ => 0x28#8
  | .setDeemphasisMode _ => 0x29#8
  | .setAdcHighpassFilter _ => 0x2A#8
  | .powerOn _ => 0x30#8
  | .powerOff _ => 0x31#8
  | .setInterfaceMode _ => 0x38#8
  | .setLeftRightSwap _ => 0x39#8
  | .setBitClockPhase _ => 0x3A#8
  | .setSampleWidth _ => 0x3B#8
  | .setDataFormat _ => 0x3C#8
  | .setClockIn _ => 0x40#8
  | .setClockOut _ => 0x41#8
  | .setSampleRateCode _ => 0x42#8
  | .setOversamplingRatio _ => 0x43#8
  | .setClockMode _ => 0x44#8
  | .busEnable _ => 0x48#8
  | .busDisable _ => 0x49#8

/-- The operand of a command (R71). -/
def Instr.arg : Instr → Word
  | .init arg => arg
  | .read arg => arg
  | .setLineInputLeftVolume arg => arg
  | .setLineInputRightVolume arg => arg
  | .setLineInputLeftSimultaneousUpdate arg => arg
  | .setLineInputRightSimultaneousUpdate arg => arg
  | .setLineInputLeftMute arg => arg
  | .setLineInputRightMute arg => arg
  | .setHeadphoneLeftVolume arg => arg
  | .setHeadphoneRightVolume arg => arg
  | .setHeadphoneLeftZeroCross arg => arg
  | .setHeadphoneRightZeroCross arg => arg
  | .setHeadphoneLeftSimultaneousUpdate arg => arg
  | .setHeadphoneRightSimultaneousUpdate arg => arg
  | .setSidetoneEnable arg => arg
  | .setSidetoneLevel arg => arg
  | .setDacInputSelect arg => arg
  | .setAnalogBypass arg => arg
  | .setInputSelect arg => arg
  | .setMicMute arg => arg
  | .setMicBoost arg => arg
  | .setDacMute arg => arg
  | .setDeemphasisMode arg => arg
  | .setAdcHighpassFilter arg => arg
  | .powerOn arg => arg
  | .powerOff arg => arg
  | .setInterfaceMode arg => arg
  | .setLeftRightSwap arg => arg
  | .setBitClockPhase arg => arg
  | .setSampleWidth arg => arg
  | .setDataFormat arg => arg
  | .setClockIn arg => arg
  | .setClockOut arg => arg
  | .setSampleRateCode arg => arg
  | .setOversamplingRatio arg => arg
  | .setClockMode arg => arg
  | .busEnable arg => arg
  | .busDisable arg => arg

/-- The command word of a command: `op` in bits 23..16, `arg` in bits 15..0 (R70). -/
def encode (i : Instr) : CmdWord := i.opcode ++ i.arg

/-- The mnemonic of a command, as R73 spells it. -/
def Instr.mnemonic : Instr → String
  | .init _ => "init"
  | .read _ => "read"
  | .setLineInputLeftVolume _ => "set_line_input_left_volume"
  | .setLineInputRightVolume _ => "set_line_input_right_volume"
  | .setLineInputLeftSimultaneousUpdate _ => "set_line_input_left_simultaneous_update"
  | .setLineInputRightSimultaneousUpdate _ => "set_line_input_right_simultaneous_update"
  | .setLineInputLeftMute _ => "set_line_input_left_mute"
  | .setLineInputRightMute _ => "set_line_input_right_mute"
  | .setHeadphoneLeftVolume _ => "set_headphone_left_volume"
  | .setHeadphoneRightVolume _ => "set_headphone_right_volume"
  | .setHeadphoneLeftZeroCross _ => "set_headphone_left_zero_cross"
  | .setHeadphoneRightZeroCross _ => "set_headphone_right_zero_cross"
  | .setHeadphoneLeftSimultaneousUpdate _ => "set_headphone_left_simultaneous_update"
  | .setHeadphoneRightSimultaneousUpdate _ => "set_headphone_right_simultaneous_update"
  | .setSidetoneEnable _ => "set_sidetone_enable"
  | .setSidetoneLevel _ => "set_sidetone_level"
  | .setDacInputSelect _ => "set_dac_input_select"
  | .setAnalogBypass _ => "set_analog_bypass"
  | .setInputSelect _ => "set_input_select"
  | .setMicMute _ => "set_mic_mute"
  | .setMicBoost _ => "set_mic_boost"
  | .setDacMute _ => "set_dac_mute"
  | .setDeemphasisMode _ => "set_deemphasis_mode"
  | .setAdcHighpassFilter _ => "set_adc_highpass_filter"
  | .powerOn _ => "power_on"
  | .powerOff _ => "power_off"
  | .setInterfaceMode _ => "set_interface_mode"
  | .setLeftRightSwap _ => "set_left_right_swap"
  | .setBitClockPhase _ => "set_bit_clock_phase"
  | .setSampleWidth _ => "set_sample_width"
  | .setDataFormat _ => "set_data_format"
  | .setClockIn _ => "set_clock_in"
  | .setClockOut _ => "set_clock_out"
  | .setSampleRateCode _ => "set_sample_rate_code"
  | .setOversamplingRatio _ => "set_oversampling_ratio"
  | .setClockMode _ => "set_clock_mode"
  | .busEnable _ => "bus_enable"
  | .busDisable _ => "bus_disable"

/-- R74: the reserved `op` values, written as the rule lists them. -/
def reservedOp (op : Nat) : Bool :=
  op == 0x00 || (0x03 ≤ op && op ≤ 0x0F) || (0x1C ≤ op && op ≤ 0x1F) || op == 0x27
    || (0x2B ≤ op && op ≤ 0x2F) || (0x32 ≤ op && op ≤ 0x37) || (0x3D ≤ op && op ≤ 0x3F)
    || (0x45 ≤ op && op ≤ 0x47) || (0x4A ≤ op && op ≤ 0xFF)

/-- A command word from the low `nbits` bits of a number; every bit above is 0. -/
def wordOfBits (nbits w : Nat) : CmdWord := BitVec.ofNat 24 (w % 2 ^ nbits)

/-- The command the decoder reads from a row's word, numbered as spec/opcode_table.json numbers its bits. A command arrives
as 24 parallel bits, so there is no byte order to lay out (R52). -/
def decodeTableWord (nbits w : Nat) : Option Instr :=
  match decode (wordOfBits nbits w) with
  | .ok i => some i
  | .error _ => none

end Sys2Proof
end

