-- ==== Sys2Proof/Config.lean ====
section
/-!
DEFINITION. What is fixed for the machine and never changed by a command (spec 00_scope.md R2), and the values the spec
leaves open. The instance's own numbers (the field table, the default words) stand in Machine/Operands.lean.
-/

namespace Sys2Proof

/-- `N_REGS` of the instance, the number of entries of its Shadow Register Table (R2, R20). For any `Cfg` it is the field
`Cfg.nRegs`. -/
abbrev nRegs : Nat := 10

/-- `ADDR_W` (R2). -/
def addrW : Nat := 7

/-- `DATA_W` (R2). -/
def dataW : Nat := 9

/-- `FRAME_W = ADDR_W + DATA_W` (R2). -/
def frameW : Nat := addrW + dataW

/-- `WORD_W` (R2). -/
def wordW : Nat := 16

/-- `CMD_W` (R2). -/
def cmdW : Nat := 24

/-- A Register Address of the instance's shadow space, `0 .. N_REGS-1` (R6, R50). For any `Cfg` it is a `Fin c.nRegs`, so
below `N_REGS` by its type (R3). -/
abbrev RegAddr := Fin nRegs

/-- One row of the Field Descriptor table: "a (register address, bit mask, bit shift, value-bit-width) tuple" (R26), for
a table of `n` registers. -/
structure FieldDescriptor (n : Nat) where
  reg   : Fin n
  mask  : Word
  shift : Nat
  width : Nat
deriving DecidableEq, Repr

/-- The rows of `FIELDS`, in the order of R26. -/
inductive FieldName where
  | lineInputLeftVolume | lineInputRightVolume
  | lineInputLeftSimultaneousUpdate | lineInputRightSimultaneousUpdate
  | lineInputLeftMute | lineInputRightMute
  | headphoneLeftVolume | headphoneRightVolume
  | headphoneLeftZeroCross | headphoneRightZeroCross
  | headphoneLeftSimultaneousUpdate | headphoneRightSimultaneousUpdate
  | sidetoneEnable | sidetoneLevel | dacInputSelect | analogBypass | inputSelect | micMute | micBoost
  | dacMute | deemphasisMode | adcHighpassFilter
  | interfaceMode | leftRightSwap | bitClockPhase | sampleWidth | dataFormat
  | clockIn | clockOut | sampleRateCode | oversamplingRatio | clockMode
  | busActive
deriving DecidableEq, Repr

/-- Every row of `FIELDS` once, in the order of R26. -/
def FieldName.all : List FieldName :=
  [.lineInputLeftVolume, .lineInputRightVolume,
   .lineInputLeftSimultaneousUpdate, .lineInputRightSimultaneousUpdate,
   .lineInputLeftMute, .lineInputRightMute,
   .headphoneLeftVolume, .headphoneRightVolume,
   .headphoneLeftZeroCross, .headphoneRightZeroCross,
   .headphoneLeftSimultaneousUpdate, .headphoneRightSimultaneousUpdate,
   .sidetoneEnable, .sidetoneLevel, .dacInputSelect, .analogBypass, .inputSelect, .micMute, .micBoost,
   .dacMute, .deemphasisMode, .adcHighpassFilter,
   .interfaceMode, .leftRightSwap, .bitClockPhase, .sampleWidth, .dataFormat,
   .clockIn, .clockOut, .sampleRateCode, .oversamplingRatio, .clockMode,
   .busActive]

/-- The static parameter record `Cfg`, the table of R2. `BUS_REG`, `BUS_MASK` and `BUS_SHIFT` are the row `busActive` of
`fields`. -/
structure Cfg where
  /-- `ADDR_W`, the bits of a register address on the bus; fixed. -/
  addrW        : Nat
  /-- `DATA_W`, the bits of a register word on the bus; fixed. -/
  dataW        : Nat
  /-- `FRAME_W`, the bits of a transaction; fixed. -/
  frameW       : Nat
  /-- `WORD_W`, the width of an entry. -/
  wordW        : Nat
  /-- `CMD_W`, the width of a command word. -/
  cmdW         : Nat
  /-- `N_REGS`, the number of entries of the table. -/
  nRegs        : Nat
  /-- `DEFAULT[0..N_REGS-1]`, the factory-default word set (R24). -/
  defaults     : Vector Word nRegs
  /-- `FIELDS` (R26). -/
  fields       : FieldName → FieldDescriptor nRegs
  /-- `POWER_REG`. -/
  powerReg     : Fin nRegs
  /-- `POWER_ON_WORD`. -/
  powerOnWord  : Word
  /-- `POWER_OFF_WORD`. -/
  powerOffWord : Word
  /-- `DELAY`, the clock cycles of hold after every line event; 0 is allowed (R2, R93). -/
  delay        : Nat
  /-- `DELAY_MIN`, used by no rule (R2). -/
  delayMin     : Nat

/-- There is at least one register, `POWER_REG`. -/
theorem Cfg.nRegs_pos (c : Cfg) : 0 < c.nRegs := Nat.lt_of_le_of_lt (Nat.zero_le _) c.powerReg.isLt

/-- Register 0, the first that `init` sends (R63). -/
def Cfg.firstReg (c : Cfg) : Fin c.nRegs := ⟨0, c.nRegs_pos⟩

/-- Register `N_REGS - 1`, the last that `init` sends (R63). -/
def Cfg.lastReg (c : Cfg) : Fin c.nRegs := ⟨c.nRegs - 1, Nat.sub_lt c.nRegs_pos Nat.one_pos⟩

/-- `DELAY` of the machine. DESIGN CHOICE, safe (log entry 6): R2 leaves it OPEN, so nothing can be proved of its value. -/
opaque Config.delay : Nat

/-- `DELAY_MIN` of the machine. DESIGN CHOICE, safe (log entry 6): R2 leaves it OPEN and no rule uses it. -/
opaque Config.delayMin : Nat

/-- What entry `a` of the shadow table holds after the reset numbered `n`. DESIGN CHOICE, unsafe only in fixing one value
for every run (log entry 3): R47 leaves every entry unspecified, so nothing can be proved of the value. -/
opaque Config.unresetShadow (n a : Nat) : Word

end Sys2Proof
end

