-- ==== Sys2Proof/Machine/State.lean ====
section
/-!
DEFINITION. The state of the core as plain data (spec 10_state.md), its state after reset (R47), and the reasons a step can
stop. The fields from `inputs` on are the model's own: what the host presents, and what an observer has seen (R12).
-/

namespace Sys2Proof.Machine

/-- The sequencer's two values (R45). -/
inductive Seq where
  | ready
  | busy
deriving DecidableEq, Repr

/-- The four status codes of a response (R200); `Status.code` gives their 2-bit numbers. -/
inductive Status where
  | ok
  | errIllegal
  | errUninit
  | errAddr
deriving DecidableEq, Repr

/-- The levels of the three serial lines, high is `true` (R43). -/
structure Lines where
  cs   : Bool
  sclk : Bool
  sdat : Bool
deriving DecidableEq, Repr

/-- One event on the lines. `cs`, `sclk` and `sdat` are the transmitter's "set level" of R92, performed whether or not the
level changes (R94); `reset` is the line change that a reset edge makes (R232). -/
inductive LineEvent where
  | cs (level : Bool)
  | sclk (level : Bool)
  | sdat (level : Bool)
  | reset
deriving DecidableEq, Repr

/-- One response of the core (R42, R200). -/
structure Response where
  status : Status
  data   : Word
deriving DecidableEq, Repr

/-- The input ports at one rising edge of `clk` (R40, R41). -/
structure PortIn where
  rst      : Bool
  cmdValid : Bool
  cmdWord  : CmdWord
deriving DecidableEq, Repr

/-- What the host presents next. DESIGN CHOICE, safe (log entry 1): `command w` is a whole command, presented until it is
accepted and run to its response as one step, which is the operation level of R9; `edge p` is one clock edge with the ports
at `p`, which is the cycle level. -/
inductive Input where
  | command (w : CmdWord)
  | edge (p : PortIn)
deriving DecidableEq, Repr

/-- The state of a core with `n` registers: everything 10_state.md names, then the model's own fields. `State` alone is the
state of the instance (R2). -/
structure State (n : Nat := nRegs) where
  /-- The Shadow Register Table (R20). -/
  shadow      : Vector Word n
  /-- The one flag (R22). -/
  initialized : Bool
  /-- The sequencer (R45). -/
  seq         : Seq
  /-- Whether the running command is `init` (R45). -/
  isInit      : Bool
  /-- The register `init` is transmitting (R45). -/
  initIdx     : Fin n
  /-- The frame being sent (R46). -/
  txFrame     : Frame
  /-- The current step of the transmitter, 0 to 49 (R46). -/
  txStep      : Fin 50
  /-- The cycles of the current step so far, 0 to `DELAY` (R46); a counter of `cntWidth DELAY` bits (R211), which every
  operation keeps it inside. -/
  txCnt       : Nat
  /-- The registered outputs `CS`, `SCLK`, `SDAT` (R43). -/
  lines       : Lines
  /-- The response port's valid bit (R42). -/
  rspValid    : Bool
  /-- The response port's status (R42). -/
  rspStatus   : Status
  /-- The response port's data (R42). -/
  rspData     : Word
  /-- The model's own: what the host presents from now on, consumed from the front. DESIGN CHOICE, unsafe (log entry 2). -/
  inputs      : List Input
  /-- The model's own: every response so far, oldest first (R12). DESIGN CHOICE, safe (log entry 5). -/
  responses   : List Response
  /-- The model's own: every line event so far, oldest first (R12). DESIGN CHOICE, safe (log entry 5). -/
  trace       : List LineEvent
  /-- The model's own: the number of reset edges seen, which picks the free value of the shadow table. DESIGN CHOICE, safe
  (log entry 4). -/
  resets      : Nat
deriving DecidableEq, Repr

/-- There is no fault: "the core as specified here has no undefined behaviour reachable from the command port" (R209), and
nothing is trapped or saved (R207). The type has no constructor. DEDUCED, safe (log entry 15). -/
inductive Fault where
deriving DecidableEq, Repr

/-- Why a step is refused. -/
inductive Refusal where
  /-- Raised by an arm of `exec` for a command without a meaning yet. Safe: nothing is claimed of such a command. No arm
  raises it in this model. -/
  | notModelled (mnemonic : String)
deriving DecidableEq, Repr

/-- The outcome of one step or one command. -/
abbrev Result := Host.Outcome State Fault Refusal

/-- The levels of the lines after reset: `CS = 1`, `SCLK = 0`, `SDAT = 0` (R47). -/
def Lines.reset : Lines := ⟨true, false, false⟩

/-- The shadow table after the reset numbered `k`: every entry unspecified (R47), so a free value. -/
def unresetTable (n k : Nat) : Vector Word n := Vector.ofFn fun a => Config.unresetShadow k a.val

/-- A core with at least one register right after the reset numbered `k`: the table of R47, nothing presented and nothing
seen. -/
def State.atReset {n : Nat} (k : Nat) (h : 0 < n) : State n where
  shadow      := unresetTable n k
  initialized := false
  seq         := .ready
  isInit      := false
  initIdx     := ⟨0, h⟩
  txFrame     := 0
  txStep      := 0
  txCnt       := 0
  lines       := Lines.reset
  rspValid    := false
  rspStatus   := .ok
  rspData     := 0
  inputs      := []
  responses   := []
  trace       := []
  resets      := k

/-- The machine right after reset. -/
def State.reset : State := State.atReset 0 (by decide)

end Sys2Proof.Machine
end

