-- ==== Sys2Proof/Machine/Flags.lean ====
section
/-!
DEFINITION. The flags: `initialized` is the only stored one (spec 10_state.md R22); `busy` and `cmd_ready` are functions of
the sequencer (R23, R41); the status codes (60_exceptions.md R200). No operation produces a condition code (R23, R113).
-/

namespace Sys2Proof.Machine

/-- The 2-bit code of a status (R200). -/
def Status.code : Status → BitVec 2
  | .ok         => 0
  | .errIllegal => 1
  | .errUninit  => 2
  | .errAddr    => 3

/-- The output `busy` (R23, R44). -/
def State.busy {n : Nat} (s : State n) : Bool := s.seq == .busy

/-- The output `cmd_ready`, a function of state only (R41). -/
def State.cmdReady {n : Nat} (s : State n) : Bool := s.seq == .ready

/-- Setting the flag, which only the completion of `init` does (R22). -/
def State.setInitialized {n : Nat} (s : State n) : State n := { s with initialized := true }

end Sys2Proof.Machine
end

