-- ==== Sys2Proof/WellFormed.lean ====
section
/-!
DEFINITION. Well-formedness of the parameters (spec 00_scope.md R3). A command needs no check of its own: its operand is any
16-bit value (R71, R204), which its type says; likewise every register address is below `N_REGS` by type.
-/

namespace Sys2Proof

/-- R3: a field has at least one bit, ends inside the word, and its mask is the run of `width` ones at `shift`. -/
def FieldDescriptor.wf {n : Nat} (fd : FieldDescriptor n) : Bool :=
  decide (1 ≤ fd.width) && decide (fd.shift + fd.width ≤ wordW)
    && fd.mask == BitVec.ofNat 16 ((2 ^ fd.width - 1) <<< fd.shift)

/-- R3: two fields of one register have masks that do not overlap. -/
def FieldDescriptor.apart {n : Nat} (f g : FieldDescriptor n) : Bool :=
  f.reg != g.reg || f.mask &&& g.mask == 0

/-- R3: `n` register addresses fit the address field of the bus. -/
def addressable (n : Nat) : Bool := decide (n ≤ 2 ^ addrW)

/-- 93_implementation_defined.md U12: a default word has no bit that the bus does not send, so that it fits `WORD_W` bits
(R3) and `DATA_W` bits too. -/
def Cfg.defaultsFit (c : Cfg) : Bool :=
  c.defaults.toList.all (fun w => decide (w.toNat < 2 ^ c.wordW) && decide (w.toNat < 2 ^ c.dataW))

/-- The widths of a `Cfg` are those that the table of R2 gives and that the ports and the formats have by number (R42, R70,
R71, R77). DESIGN CHOICE, safe (log entry 11): for another width the spec gives no format. -/
def Cfg.widthsFixed (c : Cfg) : Bool :=
  c.addrW == Sys2Proof.addrW && c.dataW == Sys2Proof.dataW && c.frameW == Sys2Proof.frameW
    && c.wordW == Sys2Proof.wordW && c.cmdW == Sys2Proof.cmdW

/-- R3, whole, with the treatment of U12: what a `Cfg` must satisfy. -/
def Cfg.wf (c : Cfg) : Bool :=
  c.widthsFixed
    && addressable c.nRegs
    && c.defaultsFit
    && FieldName.all.all (fun f => (c.fields f).wf)
    && FieldName.all.all (fun f => FieldName.all.all (fun g => f == g || (c.fields f).apart (c.fields g)))

end Sys2Proof
end

