-- ==== Sys2Proof/Machine/Operands.lean ====
section
/-!
DEFINITION. The operand forms of the commands (spec 30_encoding.md R71), the merge of a field into a word (41_model_core.md
R111, R113), the truncations at the transmitter's interface (R91), and the instance of `Cfg`: the table `FIELDS` (R26), the
default words (R24) and the power words (R2). The instance's numbers are the spec's, which marks them general knowledge
(UNVERIFIED, unsafe, log entry 10).
-/

namespace Sys2Proof.Machine

/-- The bits of a value that a field takes, in the field's place: `(v << s) & m`, 16 bits wide (R111). -/
def fieldBits {n : Nat} (fd : FieldDescriptor n) (v : Word) : Word := (v <<< fd.shift) &&& fd.mask

/-- The new word of the generic masked write: `(old & ~m) | ((v << s) & m)` (R111). -/
def mergeField {n : Nat} (fd : FieldDescriptor n) (old v : Word) : Word := (old &&& ~~~fd.mask) ||| fieldBits fd v

/-- A register address as the bus sends it: its low seven bits (R91). -/
def busAddr {n : Nat} (a : Fin n) : BusAddr := BitVec.ofNat 7 a.val

/-- A register word as the bus sends it: its low nine bits (R91, R78). -/
def busWord (w : Word) : BusWord := w.setWidth 9

/-- The address operand of `read`: all 16 bits compared with `N_REGS`, here `n`, as a natural number (R71,
R114). -/
def readAddress (n : Nat) (arg : Word) : Option (Fin n) :=
  if h : arg.toNat < n then some ⟨arg.toNat, h⟩ else none

/-- `FIELDS`: the Field Descriptor table of R26, row by row (register, mask, shift, width). -/
def fieldTable : FieldName → FieldDescriptor nRegs
  | .lineInputLeftVolume              => ⟨0, 0x001F, 0, 5⟩
  | .lineInputRightVolume             => ⟨1, 0x001F, 0, 5⟩
  | .lineInputLeftSimultaneousUpdate  => ⟨0, 0x0100, 8, 1⟩
  | .lineInputRightSimultaneousUpdate => ⟨1, 0x0100, 8, 1⟩
  | .lineInputLeftMute                => ⟨0, 0x0080, 7, 1⟩
  | .lineInputRightMute               => ⟨1, 0x0080, 7, 1⟩
  | .headphoneLeftVolume              => ⟨2, 0x007F, 0, 7⟩
  | .headphoneRightVolume             => ⟨3, 0x007F, 0, 7⟩
  | .headphoneLeftZeroCross           => ⟨2, 0x0080, 7, 1⟩
  | .headphoneRightZeroCross          => ⟨3, 0x0080, 7, 1⟩
  | .headphoneLeftSimultaneousUpdate  => ⟨2, 0x0100, 8, 1⟩
  | .headphoneRightSimultaneousUpdate => ⟨3, 0x0100, 8, 1⟩
  | .sidetoneEnable                   => ⟨4, 0x0020, 5, 1⟩
  | .sidetoneLevel                    => ⟨4, 0x00C0, 6, 2⟩
  | .dacInputSelect                   => ⟨4, 0x0010, 4, 1⟩
  | .analogBypass                     => ⟨4, 0x0008, 3, 1⟩
  | .inputSelect                      => ⟨4, 0x0004, 2, 1⟩
  | .micMute                          => ⟨4, 0x0002, 1, 1⟩
  | .micBoost                         => ⟨4, 0x0001, 0, 1⟩
  | .dacMute                          => ⟨5, 0x0008, 3, 1⟩
  | .deemphasisMode                   => ⟨5, 0x0006, 1, 2⟩
  | .adcHighpassFilter                => ⟨5, 0x0001, 0, 1⟩
  | .interfaceMode                    => ⟨7, 0x0040, 6, 1⟩
  | .leftRightSwap                    => ⟨7, 0x0020, 5, 1⟩
  | .bitClockPhase                    => ⟨7, 0x0010, 4, 1⟩
  | .sampleWidth                      => ⟨7, 0x000C, 2, 2⟩
  | .dataFormat                       => ⟨7, 0x0003, 0, 2⟩
  | .clockIn                          => ⟨8, 0x0040, 6, 1⟩
  | .clockOut                         => ⟨8, 0x0080, 7, 1⟩
  | .sampleRateCode                   => ⟨8, 0x003C, 2, 4⟩
  | .oversamplingRatio                => ⟨8, 0x0002, 1, 1⟩
  | .clockMode                        => ⟨8, 0x0001, 0, 1⟩
  | .busActive                        => ⟨9, 0x0001, 0, 1⟩

/-- `DEFAULT`: the factory-default word set of R24. -/
def defaultTable : Vector Word nRegs :=
  #v[0x0097, 0x0097, 0x00F9, 0x00F9, 0x000A, 0x0008, 0x0007, 0x0001, 0x0020, 0x0000]

/-- The instance of `Cfg` of R2, with the two OPEN parameters as arguments. -/
@[reducible] def instanceCfg (delay delayMin : Nat) : Cfg where
  addrW        := Sys2Proof.addrW
  dataW        := Sys2Proof.dataW
  frameW       := Sys2Proof.frameW
  wordW        := Sys2Proof.wordW
  cmdW         := Sys2Proof.cmdW
  nRegs        := Sys2Proof.nRegs
  defaults     := defaultTable
  fields       := fieldTable
  powerReg     := 6
  powerOnWord  := 0x01FF
  powerOffWord := 0x0000
  delay        := delay
  delayMin     := delayMin

/-- The configuration of the machine. -/
@[reducible] def cfg : Cfg := instanceCfg Config.delay Config.delayMin

end Sys2Proof.Machine
end

