-- ==== Sys2Proof/Machine/Transmitter.lean ====
section
/-!
DEFINITION. The Bit-Serial Transmitter (spec 40_transmitter.md): the frame (R77, R91), the line-event trace of one
transaction (R92), the event of each step (R99), and the effect of an event on the lines.
-/

namespace Sys2Proof.Machine

/-- The frame of a transaction: the address in bits 15..9, the data in bits 8..0 (R77). -/
def makeFrame (a : BusAddr) (d : BusWord) : Frame := a ++ d

/-- The frame that carries word `w` for register `a` (R78). -/
def frameOf {n : Nat} (a : Fin n) (w : Word) : Frame := makeFrame (busAddr a) (busWord w)

/-- `b_j = frame[15 - j]`, the `j`-th bit sent: most significant first (R92, R95). -/
def frameBit (f : Frame) (j : Nat) : Bool := f.getLsbD (15 - j)

/-- The three events of bit `j`: set the data line, raise the clock, lower the clock (R92). -/
def bitEvents (f : Frame) (j : Nat) : List LineEvent := [.sdat (frameBit f j), .sclk true, .sclk false]

/-- The 50 line events of one transaction, in order (R92). -/
def frameTrace (f : Frame) : List LineEvent :=
  .cs false :: (List.range 16).flatMap (bitEvents f) ++ [.cs true]

/-- `LineEvent(k)` of R99: the event of step `k`. -/
def lineEventAt (f : Frame) (k : Nat) : LineEvent :=
  if k = 0 then .cs false
  else if k = 49 then .cs true
  else
    match (k - 1) % 3 with
    | 0 => .sdat (frameBit f ((k - 1) / 3))
    | 1 => .sclk true
    | _ => .sclk false

/-- What an event does to the lines (R92; for a reset edge R232). -/
def LineEvent.apply : LineEvent → Lines → Lines
  | .cs b,   l => { l with cs := b }
  | .sclk b, l => { l with sclk := b }
  | .sdat b, l => { l with sdat := b }
  | .reset,  _ => Lines.reset

/-- The levels after a sequence of events, from the reset levels on. -/
def replay (es : List LineEvent) : Lines := es.foldl (fun l e => e.apply l) Lines.reset

end Sys2Proof.Machine
end

