-- ==== Sys2Proof/Machine/Ops.lean ====
section
/-!
DEFINITION. The shared operations: access to the shadow table (spec 00_scope.md R6), responding and raising an error (R8,
60_exceptions.md R207), `Transmit` (R7, 40_transmitter.md R90), the two write routines (41_model_core.md R111, R112), `read`
(R114), `init` (R115), the dispatch by class (R110), and a reset edge (70_reset_and_hazards.md R230).

An operation of the operation level leaves the sequencer's and the transmitter's registers as the cycle level leaves them
when the command's response is issued (R122). DEDUCED, safe (log entry 7).
-/

namespace Sys2Proof.Machine

variable {n : Nat}

/-- `shadow[a]` (R6). -/
def State.readShadow (s : State n) (a : Fin n) : Word := s.shadow[a.val]

/-- `shadow[a] <- v` (R6). -/
def State.writeShadow (s : State n) (a : Fin n) (v : Word) : State n :=
  { s with shadow := s.shadow.set a.val v }

/-- `respond(status, data)` (R8, R42): the response port takes the response, for one cycle valid. -/
def respond (st : Status) (d : Word) (s : State n) : State n :=
  { s with rspValid := true, rspStatus := st, rspData := d, responses := s.responses ++ [⟨st, d⟩] }

/-- `raise Err(code)` (R8): what an error does, in full, is to respond with its status and data zero (R207). There is nothing
to return from (R208). -/
def raiseErr (code : Status) (s : State n) : State n := respond code 0 s

/-- Perform one line event. -/
def emit (e : LineEvent) (s : State n) : State n :=
  { s with lines := e.apply s.lines, trace := s.trace ++ [e] }

/-- Perform line events in order. -/
def emitAll (es : List LineEvent) (s : State n) : State n := es.foldl (fun t e => emit e t) s

/-- `Transmit(a, d)` (R90, R92): the 50 events of the frame. The transmitter's registers are left as R99 leaves them at the
end of the frame. -/
def transmit (a : BusAddr) (d : BusWord) (s : State n) : State n :=
  emitAll (frameTrace (makeFrame a d)) { s with txFrame := makeFrame a d, txStep := 49, txCnt := 0 }

/-- Store a new word, send it, respond OK: the part that R111 and R112 share. -/
def storeAndSend (a : Fin n) (new : Word) (s : State n) : State n :=
  respond .ok 0 (transmit (busAddr a) (busWord new) ({ s with isInit := false }.writeShadow a new))

/-- `MaskedWrite(fd, v)` (R111). -/
def maskedWrite (fd : FieldDescriptor n) (v : Word) (s : State n) : State n :=
  storeAndSend fd.reg (mergeField fd (s.readShadow fd.reg) v) s

/-- `FullWrite(a, word)` (R112): the old entry is not read. -/
def fullWrite (a : Fin n) (word : Word) (s : State n) : State n := storeAndSend a word s

/-- `Read(arg)` (R114): the entry, or `ErrAddr` (R203). No bus activity (R55). -/
def readRegister (arg : Word) (s : State n) : State n :=
  match readAddress n arg with
  | some a => respond .ok (s.readShadow a) s
  | none   => raiseErr .errAddr s

/-- One transaction of `init`: register `a` with its default word (R115). -/
def sendDefault (c : Cfg) (s : State c.nRegs) (a : Fin c.nRegs) : State c.nRegs :=
  transmit (busAddr a) (busWord c.defaults[a.val]) { s with initIdx := a }

/-- The register addresses in ascending order (R63). -/
def allRegs (n : Nat) : List (Fin n) := List.finRange n

/-- `Init()` (R115): load every default, send each in ascending order (R63), then set `initialized` and respond. -/
def initAll (c : Cfg) (s : State c.nRegs) : State c.nRegs :=
  respond .ok 0
    ((allRegs c.nRegs).foldl (sendDefault c) { s with shadow := c.defaults, isInit := true }).setInitialized

/-- The check that guards every command but `init`: `ErrUninit` while `initialized = 0`, before anything is read or written
(R110, R202). -/
def whenInitialized (s : State n) (run : State n → State n) : State n :=
  if s.initialized then run s else raiseErr .errUninit s

/-- What a command does, by its class (R73, R110): I, R, then F and C, then W. -/
inductive Action (n : Nat) where
  | init
  | read (arg : Word)
  | masked (fd : FieldDescriptor n) (v : Word)
  | full (a : Fin n) (word : Word)
deriving DecidableEq, Repr

/-- `Execute` of R110 after the check for a reserved `op`. -/
def perform (c : Cfg) (act : Action c.nRegs) (s : State c.nRegs) : State c.nRegs :=
  match act with
  | .init        => initAll c s
  | .read arg    => whenInitialized s (readRegister arg)
  | .masked fd v => whenInitialized s (maskedWrite fd v)
  | .full a word => whenInitialized s (fullWrite a word)

/-- A rising edge with `rst = 1` (R230): every state element takes the value of R47, whatever the state (R232). The shadow
table takes the next free value; what the host will present and what an observer has seen are no state of the core. -/
def resetEdge (c : Cfg) (s : State c.nRegs) : State c.nRegs :=
  { State.atReset (s.resets + 1) c.nRegs_pos with
    inputs    := s.inputs
    responses := s.responses
    trace     := s.trace ++ [.reset] }

end Sys2Proof.Machine
end

