-- ==== Sys2Proof/Machine/Classes.lean ====
section
/-!
DEFINITION. The class of every command, with its Field Descriptor, constant or word: `class(op)`, `fd(op)`, `const(op)` and
`word(op)` of 41_model_core.md R110, for any `Cfg`; and `Execute` of R110, whole.
-/

namespace Sys2Proof.Machine

/-- The class column of 30_encoding.md R73 with the command's row of `FIELDS`, constant or word (R110). -/
def actionOf (c : Cfg) : Instr → Action c.nRegs
  | .init _ => .init
  | .read arg => .read arg
  | .setLineInputLeftVolume arg => .masked (c.fields .lineInputLeftVolume) arg
  | .setLineInputRightVolume arg => .masked (c.fields .lineInputRightVolume) arg
  | .setLineInputLeftSimultaneousUpdate arg => .masked (c.fields .lineInputLeftSimultaneousUpdate) arg
  | .setLineInputRightSimultaneousUpdate arg => .masked (c.fields .lineInputRightSimultaneousUpdate) arg
  | .setLineInputLeftMute arg => .masked (c.fields .lineInputLeftMute) arg
  | .setLineInputRightMute arg => .masked (c.fields .lineInputRightMute) arg
  | .setHeadphoneLeftVolume arg => .masked (c.fields .headphoneLeftVolume) arg
  | .setHeadphoneRightVolume arg => .masked (c.fields .headphoneRightVolume) arg
  | .setHeadphoneLeftZeroCross arg => .masked (c.fields .headphoneLeftZeroCross) arg
  | .setHeadphoneRightZeroCross arg => .masked (c.fields .headphoneRightZeroCross) arg
  | .setHeadphoneLeftSimultaneousUpdate arg => .masked (c.fields .headphoneLeftSimultaneousUpdate) arg
  | .setHeadphoneRightSimultaneousUpdate arg => .masked (c.fields .headphoneRightSimultaneousUpdate) arg
  | .setSidetoneEnable arg => .masked (c.fields .sidetoneEnable) arg
  | .setSidetoneLevel arg => .masked (c.fields .sidetoneLevel) arg
  | .setDacInputSelect arg => .masked (c.fields .dacInputSelect) arg
  | .setAnalogBypass arg => .masked (c.fields .analogBypass) arg
  | .setInputSelect arg => .masked (c.fields .inputSelect) arg
  | .setMicMute arg => .masked (c.fields .micMute) arg
  | .setMicBoost arg => .masked (c.fields .micBoost) arg
  | .setDacMute arg => .masked (c.fields .dacMute) arg
  | .setDeemphasisMode arg => .masked (c.fields .deemphasisMode) arg
  | .setAdcHighpassFilter arg => .masked (c.fields .adcHighpassFilter) arg
  | .powerOn _ => .full c.powerReg c.powerOnWord
  | .powerOff _ => .full c.powerReg c.powerOffWord
  | .setInterfaceMode arg => .masked (c.fields .interfaceMode) arg
  | .setLeftRightSwap arg => .masked (c.fields .leftRightSwap) arg
  | .setBitClockPhase arg => .masked (c.fields .bitClockPhase) arg
  | .setSampleWidth arg => .masked (c.fields .sampleWidth) arg
  | .setDataFormat arg => .masked (c.fields .dataFormat) arg
  | .setClockIn arg => .masked (c.fields .clockIn) arg
  | .setClockOut arg => .masked (c.fields .clockOut) arg
  | .setSampleRateCode arg => .masked (c.fields .sampleRateCode) arg
  | .setOversamplingRatio arg => .masked (c.fields .oversamplingRatio) arg
  | .setClockMode arg => .masked (c.fields .clockMode) arg
  | .busEnable _ => .masked (c.fields .busActive) 1
  | .busDisable _ => .masked (c.fields .busActive) 0

/-- `Execute(w)` of R110 for one accepted command word: a reserved `op` is answered with `ErrIllegal` before anything else is
looked at (R201, R206). -/
def execute (c : Cfg) (w : CmdWord) (s : State c.nRegs) : State c.nRegs :=
  match decode w with
  | .ok i    => perform c (actionOf c i) s
  | .error _ => raiseErr .errIllegal s

end Sys2Proof.Machine
end

