-- ==== Sys2Proof/Machine/Cycle.lean ====
section
/-!
DEFINITION. The cycle level (spec 41_model_core.md R122, 40_transmitter.md R99): what the core does at one rising edge of
`clk`, for any `Cfg` (so for any `DELAY`); and the front of the host's input list (10_state.md R40, R41).
-/

namespace Sys2Proof.Machine

variable {n : Nat}

/-- `Load(a, word)` of R122: start sending a frame. -/
def load (a : Fin n) (word : Word) (s : State n) : State n :=
  { s with txFrame := frameOf a word, txStep := 0, txCnt := 0, seq := .busy }

/-- The last part of `Accept` in R122: store the new word at the accepting edge and start its frame. -/
def startWrite (a : Fin n) (new : Word) (s : State n) : State n :=
  load a new ({ s with isInit := false }.writeShadow a new)

/-- `Accept` of R122 after the check for a reserved `op`. -/
def acceptAction (c : Cfg) (act : Action c.nRegs) (s : State c.nRegs) : State c.nRegs :=
  match act with
  | .init        =>
      load c.firstReg c.defaults[c.firstReg] { s with shadow := c.defaults, isInit := true, initIdx := c.firstReg }
  | .read arg    => whenInitialized s (readRegister arg)
  | .masked fd v => whenInitialized s (startWrite fd.reg (mergeField fd (s.readShadow fd.reg) v))
  | .full a word => whenInitialized s (startWrite a word)

/-- `Accept(w)` of R122. -/
def accept (c : Cfg) (w : CmdWord) (s : State c.nRegs) : State c.nRegs :=
  match decode w with
  | .ok i    => acceptAction c (actionOf c i) s
  | .error _ => raiseErr .errIllegal s

/-- `FrameDone()` of R122: the next register of `init`, or the response. -/
def frameDone (s : State n) : State n :=
  if h : s.isInit = true ∧ s.initIdx.val + 1 < n then
    load ⟨s.initIdx.val + 1, h.2⟩ (s.readShadow ⟨s.initIdx.val + 1, h.2⟩)
      { s with initIdx := ⟨s.initIdx.val + 1, h.2⟩ }
  else
    let t := respond .ok 0 { s with seq := .ready }
    if s.isInit then t.setInitialized else t

/-- The event part of `TxEdge()` in R99: the step's line event at the first cycle of the step. -/
def txEvent (s : State n) : State n :=
  if s.txCnt = 0 then emit (lineEventAt s.txFrame s.txStep.val) s else s

/-- The width of `tx_cnt` in bits: `ceil(log2(DELAY + 1))` (R211). -/
def cntWidth (delay : Nat) : Nat := Nat.clog 2 (delay + 1)

/-- The counter part of `TxEdge()` in R99: count the hold, in a counter of `cntWidth delay` bits (R211), then go to the next
step or end the frame. -/
def txCount (delay : Nat) (s : State n) : State n :=
  if s.txCnt = delay then
    if h : s.txStep.val + 1 < 50 then { s with txCnt := 0, txStep := ⟨s.txStep.val + 1, h⟩ }
    else frameDone { s with txCnt := 0 }
  else { s with txCnt := (s.txCnt + 1) % 2 ^ cntWidth delay }

/-- `TxEdge()` of R99. -/
def txEdge (delay : Nat) (s : State n) : State n := txCount delay (txEvent s)

/-- `Edge()` of R122: one rising edge of `clk` with the input ports at `p`. -/
def edge (c : Cfg) (p : PortIn) (s : State c.nRegs) : State c.nRegs :=
  if p.rst then resetEdge c s
  else
    match s.seq with
    | .ready => if p.cmdValid then accept c p.cmdWord { s with rspValid := false } else { s with rspValid := false }
    | .busy  => txEdge c.delay { s with rspValid := false }

/-- The ports when the host presents nothing. -/
def idlePorts : PortIn := ⟨false, false, 0⟩

/-- The ports when the host presents the word `w` (R41). -/
def presenting (w : CmdWord) : PortIn := ⟨false, true, w⟩

/-- Edges in order. -/
def edges (c : Cfg) (ps : List PortIn) (s : State c.nRegs) : State c.nRegs := ps.foldl (fun t p => edge c p t) s

/-- `n` edges at which the host presents nothing. -/
def idleEdges (c : Cfg) : Nat → State c.nRegs → State c.nRegs
  | 0,     s => s
  | k + 1, s => idleEdges c k (edge c idlePorts s)

/-- What a step is asked to do. -/
inductive Fetched where
  /-- Run a whole command. -/
  | command (w : CmdWord)
  /-- Take one clock edge. -/
  | edge (p : PortIn)
deriving DecidableEq, Repr

/-- The front of the input list, and the state after taking it (log entries 1 and 2). A command is taken only in `READY`; in
`BUSY` the host goes on presenting it, and the step is one clock edge (R41). Nothing presented is an idle edge. -/
def fetch (s : State n) : Fetched × State n :=
  match s.inputs with
  | []                => (.edge idlePorts, s)
  | .edge p :: rest   => (.edge p, { s with inputs := rest })
  | .command w :: rest =>
    match s.seq with
    | .ready => (.command w, { s with inputs := rest })
    | .busy  => (.edge (presenting w), s)

end Sys2Proof.Machine
end

