-- ==== Sys2Proof/Machine/AnalogDigital.lean ====
section
/-!
DEFINITION. The analog-path and digital-path setters (spec 43_analog_and_digital_path.md R150 to R159), each one call of
the generic masked write after the check of R202.
-/

namespace Sys2Proof.Machine

/-- `set_sidetone_enable(value)` (R150). -/
def execSetSidetoneEnable (arg : Word) (s : State) : Result :=
  .next (whenInitialized s (maskedWrite (cfg.fields .sidetoneEnable) arg))

/-- `set_sidetone_level(value)` (R151). -/
def execSetSidetoneLevel (arg : Word) (s : State) : Result :=
  .next (whenInitialized s (maskedWrite (cfg.fields .sidetoneLevel) arg))

/-- `set_dac_input_select(value)` (R152). -/
def execSetDacInputSelect (arg : Word) (s : State) : Result :=
  .next (whenInitialized s (maskedWrite (cfg.fields .dacInputSelect) arg))

/-- `set_analog_bypass(value)` (R153). -/
def execSetAnalogBypass (arg : Word) (s : State) : Result :=
  .next (whenInitialized s (maskedWrite (cfg.fields .analogBypass) arg))

/-- `set_input_select(value)` (R154). -/
def execSetInputSelect (arg : Word) (s : State) : Result :=
  .next (whenInitialized s (maskedWrite (cfg.fields .inputSelect) arg))

/-- `set_mic_mute(value)` (R155). -/
def execSetMicMute (arg : Word) (s : State) : Result :=
  .next (whenInitialized s (maskedWrite (cfg.fields .micMute) arg))

/-- `set_mic_boost(value)` (R156). -/
def execSetMicBoost (arg : Word) (s : State) : Result :=
  .next (whenInitialized s (maskedWrite (cfg.fields .micBoost) arg))

/-- `set_dac_mute(value)` (R157). -/
def execSetDacMute (arg : Word) (s : State) : Result :=
  .next (whenInitialized s (maskedWrite (cfg.fields .dacMute) arg))

/-- `set_deemphasis_mode(value)` (R158). -/
def execSetDeemphasisMode (arg : Word) (s : State) : Result :=
  .next (whenInitialized s (maskedWrite (cfg.fields .deemphasisMode) arg))

/-- `set_adc_highpass_filter(value)` (R159). -/
def execSetAdcHighpassFilter (arg : Word) (s : State) : Result :=
  .next (whenInitialized s (maskedWrite (cfg.fields .adcHighpassFilter) arg))

end Sys2Proof.Machine
end

