-- ==== Sys2Proof/Machine/BusActivation.lean ====
section
/-!
DEFINITION. Bus enable and bus disable (spec 46_bus_activation.md R195, R196): masked writes of a constant after the check of
R202; `arg` is ignored.
-/

namespace Sys2Proof.Machine

/-- `bus_enable()` (R195): the constant 1 into the one-bit field ACT. -/
def execBusEnable (_arg : Word) (s : State) : Result :=
  .next (whenInitialized s (maskedWrite (cfg.fields .busActive) 1))

/-- `bus_disable()` (R196): the constant 0 into the one-bit field ACT. -/
def execBusDisable (_arg : Word) (s : State) : Result :=
  .next (whenInitialized s (maskedWrite (cfg.fields .busActive) 0))

end Sys2Proof.Machine
end

