-- ==== Sys2Proof/Machine/InterfaceRate.lean ====
section
/-!
DEFINITION. The interface-format and sample-rate setters (spec 45_interface_and_sample_rate.md R180 to R189), each one call
of the generic masked write after the check of R202.
-/

namespace Sys2Proof.Machine

/-- `set_interface_mode(value)` (R180). -/
def execSetInterfaceMode (arg : Word) (s : State) : Result :=
  .next (whenInitialized s (maskedWrite (cfg.fields .interfaceMode) arg))

/-- `set_left_right_swap(value)` (R181). -/
def execSetLeftRightSwap (arg : Word) (s : State) : Result :=
  .next (whenInitialized s (maskedWrite (cfg.fields .leftRightSwap) arg))

/-- `set_bit_clock_phase(value)` (R182). -/
def execSetBitClockPhase (arg : Word) (s : State) : Result :=
  .next (whenInitialized s (maskedWrite (cfg.fields .bitClockPhase) arg))

/-- `set_sample_width(value)` (R183). -/
def execSetSampleWidth (arg : Word) (s : State) : Result :=
  .next (whenInitialized s (maskedWrite (cfg.fields .sampleWidth) arg))

/-- `set_data_format(value)` (R184). -/
def execSetDataFormat (arg : Word) (s : State) : Result :=
  .next (whenInitialized s (maskedWrite (cfg.fields .dataFormat) arg))

/-- `set_clock_in(value)` (R185). -/
def execSetClockIn (arg : Word) (s : State) : Result :=
  .next (whenInitialized s (maskedWrite (cfg.fields .clockIn) arg))

/-- `set_clock_out(value)` (R186). -/
def execSetClockOut (arg : Word) (s : State) : Result :=
  .next (whenInitialized s (maskedWrite (cfg.fields .clockOut) arg))

/-- `set_sample_rate_code(value)` (R187). -/
def execSetSampleRateCode (arg : Word) (s : State) : Result :=
  .next (whenInitialized s (maskedWrite (cfg.fields .sampleRateCode) arg))

/-- `set_oversampling_ratio(value)` (R188). -/
def execSetOversamplingRatio (arg : Word) (s : State) : Result :=
  .next (whenInitialized s (maskedWrite (cfg.fields .oversamplingRatio) arg))

/-- `set_clock_mode(value)` (R189). -/
def execSetClockMode (arg : Word) (s : State) : Result :=
  .next (whenInitialized s (maskedWrite (cfg.fields .clockMode) arg))

end Sys2Proof.Machine
end

