-- ==== Sys2Proof/Machine/LineHeadphone.lean ====
section
/-!
DEFINITION. The line-input and headphone setters (spec 42_line_and_headphone.md R130 to R141), each one call of the
generic masked write after the check of R202.
-/

namespace Sys2Proof.Machine

/-- `set_line_input_left_volume(value)` (R130). -/
def execSetLineInputLeftVolume (arg : Word) (s : State) : Result :=
  .next (whenInitialized s (maskedWrite (cfg.fields .lineInputLeftVolume) arg))

/-- `set_line_input_right_volume(value)` (R131). -/
def execSetLineInputRightVolume (arg : Word) (s : State) : Result :=
  .next (whenInitialized s (maskedWrite (cfg.fields .lineInputRightVolume) arg))

/-- `set_line_input_left_simultaneous_update(value)` (R132). -/
def execSetLineInputLeftSimultaneousUpdate (arg : Word) (s : State) : Result :=
  .next (whenInitialized s (maskedWrite (cfg.fields .lineInputLeftSimultaneousUpdate) arg))

/-- `set_line_input_right_simultaneous_update(value)` (R133). -/
def execSetLineInputRightSimultaneousUpdate (arg : Word) (s : State) : Result :=
  .next (whenInitialized s (maskedWrite (cfg.fields .lineInputRightSimultaneousUpdate) arg))

/-- `set_line_input_left_mute(value)` (R134). -/
def execSetLineInputLeftMute (arg : Word) (s : State) : Result :=
  .next (whenInitialized s (maskedWrite (cfg.fields .lineInputLeftMute) arg))

/-- `set_line_input_right_mute(value)` (R135). -/
def execSetLineInputRightMute (arg : Word) (s : State) : Result :=
  .next (whenInitialized s (maskedWrite (cfg.fields .lineInputRightMute) arg))

/-- `set_headphone_left_volume(value)` (R136). -/
def execSetHeadphoneLeftVolume (arg : Word) (s : State) : Result :=
  .next (whenInitialized s (maskedWrite (cfg.fields .headphoneLeftVolume) arg))

/-- `set_headphone_right_volume(value)` (R137). -/
def execSetHeadphoneRightVolume (arg : Word) (s : State) : Result :=
  .next (whenInitialized s (maskedWrite (cfg.fields .headphoneRightVolume) arg))

/-- `set_headphone_left_zero_cross(value)` (R138). -/
def execSetHeadphoneLeftZeroCross (arg : Word) (s : State) : Result :=
  .next (whenInitialized s (maskedWrite (cfg.fields .headphoneLeftZeroCross) arg))

/-- `set_headphone_right_zero_cross(value)` (R139). -/
def execSetHeadphoneRightZeroCross (arg : Word) (s : State) : Result :=
  .next (whenInitialized s (maskedWrite (cfg.fields .headphoneRightZeroCross) arg))

/-- `set_headphone_left_simultaneous_update(value)` (R140). -/
def execSetHeadphoneLeftSimultaneousUpdate (arg : Word) (s : State) : Result :=
  .next (whenInitialized s (maskedWrite (cfg.fields .headphoneLeftSimultaneousUpdate) arg))

/-- `set_headphone_right_simultaneous_update(value)` (R141). -/
def execSetHeadphoneRightSimultaneousUpdate (arg : Word) (s : State) : Result :=
  .next (whenInitialized s (maskedWrite (cfg.fields .headphoneRightSimultaneousUpdate) arg))

end Sys2Proof.Machine
end

