-- ==== Sys2Proof/Machine/ModelCore.lean ====
section
/-!
DEFINITION. The commands `init` and `read` (spec 41_model_core.md R114, R115).
-/

namespace Sys2Proof.Machine

/-- `init()` (R115): legal in both states of `initialized`; `arg` is ignored. -/
def execInit (_arg : Word) (s : State) : Result :=
  .next (initAll cfg s)

/-- `read(register_address)` (R114), `ErrUninit` before `init` (R202), `ErrAddr` at or above `N_REGS` (R203). -/
def execRead (arg : Word) (s : State) : Result :=
  .next (whenInitialized s (readRegister arg))

end Sys2Proof.Machine
end

