-- ==== Sys2Proof/Machine/Power.lean ====
section
/-!
DEFINITION. The power commands (spec 44_power.md R170, R171): full-word writes after the check of R202; `arg` is ignored.
-/

namespace Sys2Proof.Machine

/-- `power_on()` (R170): the old word is not read. -/
def execPowerOn (_arg : Word) (s : State) : Result :=
  .next (whenInitialized s (fullWrite cfg.powerReg cfg.powerOnWord))

/-- `power_off()` (R171): the old word is not read. -/
def execPowerOff (_arg : Word) (s : State) : Result :=
  .next (whenInitialized s (fullWrite cfg.powerReg cfg.powerOffWord))

end Sys2Proof.Machine
end

