-- ==== Sys2Proof/Machine/Dispatch.lean ====
section
/-!
DEFINITION. The meaning of a command, `Execute` of 41_model_core.md R110 after decoding: one arm per row of the opcode table.
-/

namespace Sys2Proof.Machine

def exec (i : Instr) (s : State) : Host.Outcome State Fault Refusal :=
  match i with
  | .init arg => Sys2Proof.Machine.execInit arg s
  | .read arg => Sys2Proof.Machine.execRead arg s
  | .setLineInputLeftVolume arg => Sys2Proof.Machine.execSetLineInputLeftVolume arg s
  | .setLineInputRightVolume arg => Sys2Proof.Machine.execSetLineInputRightVolume arg s
  | .setLineInputLeftSimultaneousUpdate arg => Sys2Proof.Machine.execSetLineInputLeftSimultaneousUpdate arg s
  | .setLineInputRightSimultaneousUpdate arg => Sys2Proof.Machine.execSetLineInputRightSimultaneousUpdate arg s
  | .setLineInputLeftMute arg => Sys2Proof.Machine.execSetLineInputLeftMute arg s
  | .setLineInputRightMute arg => Sys2Proof.Machine.execSetLineInputRightMute arg s
  | .setHeadphoneLeftVolume arg => Sys2Proof.Machine.execSetHeadphoneLeftVolume arg s
  | .setHeadphoneRightVolume arg => Sys2Proof.Machine.execSetHeadphoneRightVolume arg s
  | .setHeadphoneLeftZeroCross arg => Sys2Proof.Machine.execSetHeadphoneLeftZeroCross arg s
  | .setHeadphoneRightZeroCross arg => Sys2Proof.Machine.execSetHeadphoneRightZeroCross arg s
  | .setHeadphoneLeftSimultaneousUpdate arg => Sys2Proof.Machine.execSetHeadphoneLeftSimultaneousUpdate arg s
  | .setHeadphoneRightSimultaneousUpdate arg => Sys2Proof.Machine.execSetHeadphoneRightSimultaneousUpdate arg s
  | .setSidetoneEnable arg => Sys2Proof.Machine.execSetSidetoneEnable arg s
  | .setSidetoneLevel arg => Sys2Proof.Machine.execSetSidetoneLevel arg s
  | .setDacInputSelect arg => Sys2Proof.Machine.execSetDacInputSelect arg s
  | .setAnalogBypass arg => Sys2Proof.Machine.execSetAnalogBypass arg s
  | .setInputSelect arg => Sys2Proof.Machine.execSetInputSelect arg s
  | .setMicMute arg => Sys2Proof.Machine.execSetMicMute arg s
  | .setMicBoost arg => Sys2Proof.Machine.execSetMicBoost arg s
  | .setDacMute arg => Sys2Proof.Machine.execSetDacMute arg s
  | .setDeemphasisMode arg => Sys2Proof.Machine.execSetDeemphasisMode arg s
  | .setAdcHighpassFilter arg => Sys2Proof.Machine.execSetAdcHighpassFilter arg s
  | .powerOn arg => Sys2Proof.Machine.execPowerOn arg s
  | .powerOff arg => Sys2Proof.Machine.execPowerOff arg s
  | .setInterfaceMode arg => Sys2Proof.Machine.execSetInterfaceMode arg s
  | .setLeftRightSwap arg => Sys2Proof.Machine.execSetLeftRightSwap arg s
  | .setBitClockPhase arg => Sys2Proof.Machine.execSetBitClockPhase arg s
  | .setSampleWidth arg => Sys2Proof.Machine.execSetSampleWidth arg s
  | .setDataFormat arg => Sys2Proof.Machine.execSetDataFormat arg s
  | .setClockIn arg => Sys2Proof.Machine.execSetClockIn arg s
  | .setClockOut arg => Sys2Proof.Machine.execSetClockOut arg s
  | .setSampleRateCode arg => Sys2Proof.Machine.execSetSampleRateCode arg s
  | .setOversamplingRatio arg => Sys2Proof.Machine.execSetOversamplingRatio arg s
  | .setClockMode arg => Sys2Proof.Machine.execSetClockMode arg s
  | .busEnable arg => Sys2Proof.Machine.execBusEnable arg s
  | .busDisable arg => Sys2Proof.Machine.execBusDisable arg s

end Sys2Proof.Machine
end

