-- ==== Sys2Proof/Machine/Step.lean ====
section
/-!
DEFINITION. One step of the machine: a whole command at the operation level, or one clock edge at the cycle level, as the
input list asks (spec 00_scope.md R9; log entry 1).
-/

namespace Sys2Proof.Machine

/-- One step of the core that any `Cfg` configures (R2, R9). -/
def stepFor (c : Cfg) (s : State c.nRegs) : Host.Outcome (State c.nRegs) Fault Refusal :=
  match fetch s with
  | (.command w, t) => .next (execute c w t)
  | (.edge p, t)    => .next (edge c p t)

/-- One step of the machine. A presented command is decoded and run (R110); a reserved `op` is answered with `ErrIllegal` (R201); anything
else is one rising edge of `clk` (R122). -/
def step (s : State) : Host.Outcome State Fault Refusal :=
  match fetch s with
  | (.command w, t) =>
    match decode w with
    | .ok i    => exec i t
    | .error _ => .next (raiseErr .errIllegal t)
  | (.edge p, t) => .next (edge cfg p t)

/-- The host presents the command word next, to a core that is ready for it (log entry 9). -/
def State.withFetchWord (s : State) (nbits w : Nat) : State :=
  { s with inputs := .command (wordOfBits nbits w) :: s.inputs, seq := .ready }

end Sys2Proof.Machine
end

