-- ==== Sys2Proof/Machine/Written.lean ====
section
/-!
DEFINITION. The written form of a command and the command word it stands for (spec 30_encoding.md R76). It is how a host
spells a command; no rule of the core reads it.
-/

namespace Sys2Proof.Machine

/-- A written operand: a number, or for `read` the name of a register (R76). -/
inductive WrittenOperand where
  | number (n : Nat)
  | register (name : String)
deriving DecidableEq, Repr

/-- One line of a written program: `mnemonic()` or `mnemonic(operand)` (R76). -/
structure Written where
  mnemonic : String
  operand  : Option WrittenOperand
deriving DecidableEq, Repr

/-- The register names of 10_state.md R20, in address order. -/
def registerNames : List String :=
  ["LEFT_LINE_VOLUME", "RIGHT_LINE_VOLUME", "LEFT_HEADPHONE_VOLUME", "RIGHT_HEADPHONE_VOLUME", "ANALOG_PATH",
   "DIGITAL_PATH", "POWER", "INTERFACE_FORMAT", "SAMPLE_RATE", "BUS_ACTIVATION"]

/-- Every mnemonic with its `op` value and whether it is written with an operand (R73, R76). -/
def mnemonicTable : List (String × Opcode × Bool) :=
  [
   ("init", 0x01, false),
   ("read", 0x02, true),
   ("set_line_input_left_volume", 0x10, true),
   ("set_line_input_right_volume", 0x11, true),
   ("set_line_input_left_simultaneous_update", 0x12, true),
   ("set_line_input_right_simultaneous_update", 0x13, true),
   ("set_line_input_left_mute", 0x14, true),
   ("set_line_input_right_mute", 0x15, true),
   ("set_headphone_left_volume", 0x16, true),
   ("set_headphone_right_volume", 0x17, true),
   ("set_headphone_left_zero_cross", 0x18, true),
   ("set_headphone_right_zero_cross", 0x19, true),
   ("set_headphone_left_simultaneous_update", 0x1A, true),
   ("set_headphone_right_simultaneous_update", 0x1B, true),
   ("set_sidetone_enable", 0x20, true),
   ("set_sidetone_level", 0x21, true),
   ("set_dac_input_select", 0x22, true),
   ("set_analog_bypass", 0x23, true),
   ("set_input_select", 0x24, true),
   ("set_mic_mute", 0x25, true),
   ("set_mic_boost", 0x26, true),
   ("set_dac_mute", 0x28, true),
   ("set_deemphasis_mode", 0x29, true),
   ("set_adc_highpass_filter", 0x2A, true),
   ("power_on", 0x30, false),
   ("power_off", 0x31, false),
   ("set_interface_mode", 0x38, true),
   ("set_left_right_swap", 0x39, true),
   ("set_bit_clock_phase", 0x3A, true),
   ("set_sample_width", 0x3B, true),
   ("set_data_format", 0x3C, true),
   ("set_clock_in", 0x40, true),
   ("set_clock_out", 0x41, true),
   ("set_sample_rate_code", 0x42, true),
   ("set_oversampling_ratio", 0x43, true),
   ("set_clock_mode", 0x44, true),
   ("bus_enable", 0x48, false),
   ("bus_disable", 0x49, false)
  ]

/-- The value of a written operand; a register name stands for its address, for `read` only. A number above 16 bits has no
encoding. DESIGN CHOICE, safe (log entry 17): R76 does not say what such a number stands for. -/
def operandValue (op : Opcode) : WrittenOperand → Option Word
  | .number n      => if n < 2 ^ wordW then some (BitVec.ofNat 16 n) else none
  | .register name =>
    if op = 0x02 then
      if registerNames.idxOf name < nRegs then some (BitVec.ofNat 16 (registerNames.idxOf name)) else none
    else none

/-- The command word of a written command, if it is one. `mnemonic()` is encoded with `arg = 0x0000` (R76). -/
def assemble (x : Written) : Option CmdWord :=
  match mnemonicTable.find? (fun row => row.1 == x.mnemonic), x.operand with
  | some (_, op, false), none   => some (op ++ (0 : Word))
  | some (_, op, true),  some o => (operandValue op o).map (fun v => op ++ v)
  | _, _                        => none

/-- Whether a command is written with an operand: the field setters and `read` (R71, R76). -/
def takesOperand : Instr → Bool
  | .init _ => false
  | .powerOn _ => false
  | .powerOff _ => false
  | .busEnable _ => false
  | .busDisable _ => false
  | .read _ => true
  | .setLineInputLeftVolume _ => true
  | .setLineInputRightVolume _ => true
  | .setLineInputLeftSimultaneousUpdate _ => true
  | .setLineInputRightSimultaneousUpdate _ => true
  | .setLineInputLeftMute _ => true
  | .setLineInputRightMute _ => true
  | .setHeadphoneLeftVolume _ => true
  | .setHeadphoneRightVolume _ => true
  | .setHeadphoneLeftZeroCross _ => true
  | .setHeadphoneRightZeroCross _ => true
  | .setHeadphoneLeftSimultaneousUpdate _ => true
  | .setHeadphoneRightSimultaneousUpdate _ => true
  | .setSidetoneEnable _ => true
  | .setSidetoneLevel _ => true
  | .setDacInputSelect _ => true
  | .setAnalogBypass _ => true
  | .setInputSelect _ => true
  | .setMicMute _ => true
  | .setMicBoost _ => true
  | .setDacMute _ => true
  | .setDeemphasisMode _ => true
  | .setAdcHighpassFilter _ => true
  | .setInterfaceMode _ => true
  | .setLeftRightSwap _ => true
  | .setBitClockPhase _ => true
  | .setSampleWidth _ => true
  | .setDataFormat _ => true
  | .setClockIn _ => true
  | .setClockOut _ => true
  | .setSampleRateCode _ => true
  | .setOversamplingRatio _ => true
  | .setClockMode _ => true

/-- A written program: one command per line, presented in order (R76). -/
def assembleAll (xs : List Written) : Option (List CmdWord) := xs.mapM assemble

end Sys2Proof.Machine
end

