-- ==== Sys2Proof/Machine/Observer.lean ====
section
/-!
DEFINITION. What an observer of the core can see, and nothing else (spec 00_scope.md R12): the output ports (10_state.md R41
to R44), the responses and the line events; and how a listener on the three lines reads frames off the events
(40_transmitter.md R97). The chip's own contents are no part of the model (R48; log entry 13).
-/

namespace Sys2Proof.Machine

/-- The output ports (R41 to R44). -/
structure Outputs where
  cmdReady    : Bool
  rspValid    : Bool
  rspStatus   : BitVec 2
  rspData     : Word
  cs          : Bool
  sclk        : Bool
  sdat        : Bool
  busy        : Bool
  initialized : Bool
deriving DecidableEq, Repr

/-- The levels of the output ports in a state. -/
def State.outputs {n : Nat} (s : State n) : Outputs where
  cmdReady    := s.cmdReady
  rspValid    := s.rspValid
  rspStatus   := s.rspStatus.code
  rspData     := s.rspData
  cs          := s.lines.cs
  sclk        := s.lines.sclk
  sdat        := s.lines.sdat
  busy        := s.busy
  initialized := s.initialized

/-- What has been seen of the core so far (R12). -/
structure Observation where
  outputs   : Outputs
  responses : List Response
  trace     : List LineEvent
deriving DecidableEq, Repr

/-- The observation of a state. -/
def State.observed {n : Nat} (s : State n) : Observation := ⟨s.outputs, s.responses, s.trace⟩

/-- A listener on the lines: the levels it sees, the bits sampled since chip-select fell, and the whole frames so far. -/
structure Listener where
  lines  : Lines
  pulses : Nat
  bits   : Frame
  frames : List Frame
deriving DecidableEq, Repr

/-- A listener before anything happens. -/
def Listener.start : Listener := ⟨Lines.reset, 0, 0, []⟩

/-- One event as a listener takes it: it samples `SDAT` at each rise of `SCLK` while `CS` is low (R97), and has a frame when
`CS` rises after exactly 16 pulses; a frame cut short by a reset edge is none (R232). -/
def Listener.hear (l : Listener) (e : LineEvent) : Listener :=
  let now := e.apply l.lines
  match e with
  | .cs false  => { l with lines := now, pulses := 0, bits := 0 }
  | .cs true   =>
    { l with lines := now
             frames := if l.lines.cs = false ∧ l.pulses = 16 then l.frames ++ [l.bits] else l.frames }
  | .sclk true =>
    if l.lines.cs = false ∧ l.lines.sclk = false then
      { l with lines := now, pulses := l.pulses + 1, bits := (l.bits <<< 1) ||| (BitVec.ofBool l.lines.sdat).setWidth 16 }
    else { l with lines := now }
  | .sclk false => { l with lines := now }
  | .sdat _     => { l with lines := now }
  | .reset      => { l with lines := now, pulses := 0, bits := 0 }

/-- The frames that a listener reads off a sequence of line events. -/
def framesSent (es : List LineEvent) : List Frame := (es.foldl Listener.hear Listener.start).frames

end Sys2Proof.Machine
end

