-- ==== Sys2Proof/Safety.lean ====
section
/-!
DEFINITION. The vocabulary of the claims: what a state is after a command as the rules give it, the invariant of the machine,
the relation of states that no observer can tell apart, and the words a host has had accepted.
-/

namespace Sys2Proof.Machine

variable {n : Nat}

/-- The state after a writing command that stores `new` in entry `a`, as R111 and R112 give it, written out field by field:
the entry, the 50 events of the frame (R92), the levels they leave (R96), the response `(OK, 0x0000)`. Every field not named
is unchanged. -/
def State.afterWrite (s : State n) (a : Fin n) (new : Word) : State n :=
  { s with
    shadow    := s.shadow.set a.val new
    isInit    := false
    txFrame   := frameOf a new
    txStep    := 49
    txCnt     := 0
    lines     := ⟨true, false, new.getLsbD 0⟩
    trace     := s.trace ++ frameTrace (frameOf a new)
    rspValid  := true
    rspStatus := .ok
    rspData   := 0
    responses := s.responses ++ [⟨.ok, 0⟩] }

/-- The state after a command that only answers: the response port and the log of responses, nothing else (R55, R207). -/
def State.afterAnswer (s : State n) (st : Status) (d : Word) : State n :=
  { s with rspValid := true, rspStatus := st, rspData := d, responses := s.responses ++ [⟨st, d⟩] }

/-- A writing command has stored `new` in entry `a`, sent it and answered `(OK, 0x0000)`; nothing else that an operation-level
rule speaks of has changed (R111, R112). The sequencer's and transmitter's registers of the running frame (R45, R46), which
the operation level does not see, are left out; `CommandRunRefinesOperation` says what they are. -/
structure State.Wrote (s t : State n) (a : Fin n) (new : Word) : Prop where
  /-- Exactly the entry `a` is written (R21). -/
  table     : t.shadow = s.shadow.set a.val new
  /-- The 50 events of the frame of `a` and `new[8:0]`, in order (R78, R92). -/
  events    : t.trace = s.trace ++ frameTrace (frameOf a new)
  /-- The levels the frame leaves: `CS = 1`, `SCLK = 0`, `SDAT` the last data bit (R92). -/
  levels    : t.lines = ⟨true, false, new.getLsbD 0⟩
  /-- The response port holds `(OK, 0x0000)`. -/
  port      : t.rspValid = true ∧ t.rspStatus = .ok ∧ t.rspData = 0
  /-- One response was issued. -/
  answer    : t.responses = s.responses ++ [⟨.ok, 0⟩]
  /-- No flag is written, and nothing else changes. -/
  unchanged : t.initialized = s.initialized ∧ t.seq = s.seq ∧ t.initIdx = s.initIdx ∧ t.inputs = s.inputs ∧
    t.resets = s.resets

/-- What a writing command does, whole: `op` followed by any `arg` decodes to it; initialized, it completes, and stores and
sends `new (old entry) arg`; before `init` it answers `ErrUninit` and does nothing else (R202). -/
def WritesWord (op : Opcode) (command : Word → Instr) (a : RegAddr) (new : Word → Word → Word) : Prop :=
  ∀ (arg : Word) (s : State),
    decode (op ++ arg) = .ok (command arg) ∧
    (s.initialized = true →
      ∃ t, exec (command arg) s = .next t ∧ s.Wrote t a (new (s.readShadow a) arg)) ∧
    (s.initialized = false → exec (command arg) s = .next (s.afterAnswer .errUninit 0))

/-- Chip-select high and the clock low: no transaction in progress (R43). -/
def Lines.atRest (l : Lines) : Prop := l.cs = true ∧ l.sclk = false

/-- How many of the running frame's 50 events have been performed: an event is performed in the first cycle of its step
(R99). -/
def State.eventsDone (s : State n) : Nat := s.txStep.val + (if s.txCnt = 0 then 0 else 1)

/-- The invariant of the machine. -/
structure State.Inv (s : State) : Prop where
  /-- The lines stand as the events so far have set them (R43). -/
  lines_replay : s.lines = replay s.trace
  /-- Between transactions `CS = 1` and `SCLK = 0` (R43). -/
  ready_rest : s.seq = .ready → s.lines.atRest
  /-- `tx_cnt` is 0 to `DELAY` (R46), busy or not, so it fits its width (R211). -/
  count_bound : s.txCnt ≤ cfg.delay
  /-- Only `init` runs in the uninitialized state (R202). -/
  busy_reason : s.seq = .busy → s.initialized = true ∨ s.isInit = true
  /-- The running frame is exactly as far as its registers say, and it began at rest (R92, R96). -/
  frame_progress : s.seq = .busy →
    ∃ before, s.trace = before ++ (frameTrace s.txFrame).take s.eventsDone ∧ (replay before).atRest
  /-- The running frame carries an entry as it is stored, for `init` the entry `init_idx` (R59, R122). -/
  frame_word : s.seq = .busy →
    ∃ a, s.txFrame = frameOf a (s.readShadow a) ∧ (s.isInit = true → a = s.initIdx)
  /-- While `init` runs, the table holds the defaults (R122). -/
  init_table : s.seq = .busy → s.isInit = true → s.shadow = cfg.defaults
  /-- Once loaded, bits 15..9 of every entry are zero (R28). -/
  high_zero : s.seq = .busy ∨ s.initialized = true → ∀ a, (s.readShadow a).extractLsb' 9 7 = 0

/-- Two states that no observer can ever tell apart: equal, but for the shadow table of a core that is uninitialized and
idle (R47, R202). -/
def State.Alike (s t : State) : Prop :=
  { s with shadow := t.shadow } = t ∧ (s.shadow = t.shadow ∨ (s.initialized = false ∧ s.seq = .ready))

/-- Equal but for `rsp_valid`, which is high for one cycle only (R42). -/
def State.SameButValid (s t : State n) : Prop := { s with rspValid := t.rspValid } = t

/-- The words at the accepting edges of a run (R41). -/
def acceptedWords (c : Cfg) : List PortIn → State c.nRegs → List CmdWord
  | [],      _ => []
  | p :: ps, s =>
    (if p.rst = false ∧ p.cmdValid = true ∧ s.seq = .ready then [p.cmdWord] else []) ++ acceptedWords c ps (edge c p s)

/-- Commands one after another at the operation level (R57). -/
def executeAll (c : Cfg) (ws : List CmdWord) (s : State c.nRegs) : State c.nRegs := ws.foldl (fun t w => execute c w t) s

/-- The commands that send frames: all but `read` (R73). -/
def Action.frames : Action n → Nat
  | .init       => n
  | .read _     => 0
  | .masked _ _ => 1
  | .full _ _   => 1

/-- The latency of a command word in `clk` cycles from the accepting edge to the edge that issues the response (R123, R244):
50 steps of `DELAY + 1` cycles for every frame it sends, and none where it ends in an error. -/
def latency (c : Cfg) (w : CmdWord) (s : State c.nRegs) : Nat :=
  match decode w with
  | .error _ => 0
  | .ok i =>
    match actionOf c i with
    | .init => c.nRegs * (50 * (c.delay + 1))
    | act   => if s.initialized then act.frames * (50 * (c.delay + 1)) else 0

end Sys2Proof.Machine
end

