-- ==== Sys2Proof/Certificates/Slice0/Obligations.lean ====
section
/-!
DEFINITION. The statements for the provers. Each docstring names the rules of spec/ that the statement formalises. A statement
about a `Cfg` is about a well-formed one, as R3 asks; `InstanceIsWellFormed` says that the machine's is.
-/

open Sys2Proof Sys2Proof.Machine

-- ==== Encoding (30_encoding.md) ====

/-- Decoding the word of a command gives the command back, with every operand (R70, R73). -/
def Obligations.DecodeOfEncodeIsTheCommand : Prop :=
  ∀ i : Instr, decode (encode i) = .ok i

/-- A word that decodes to a command is that command's word: no bit of it is dropped (R70, R73). -/
def Obligations.EncodeOfDecodeIsTheWord : Prop :=
  ∀ (w : CmdWord) (i : Instr), decode w = .ok i → encode i = w

/-- R72: a word selects a row exactly when its bits under the mask `0xFF0000` are the row's `match`, `op << 16`; every word
selects a row or is reserved; no two rows share an `op`. -/
def Obligations.WordSelectsRowByMask : Prop :=
  (∀ (w : CmdWord) (j : Instr),
    (∃ i, decode w = .ok i ∧ i.mnemonic = j.mnemonic) ↔ w &&& 0xFF0000#24 = j.opcode.setWidth 24 <<< 16) ∧
  (∀ w : CmdWord, (∃ i, decode w = .ok i) ∨ decode w = .error (.reserved (opField w))) ∧
  (∀ i j : Instr, i.opcode = j.opcode → i.mnemonic = j.mnemonic)

/-- The words rejected by the decoder are exactly those whose `op` the list of R74 names, 218 values, among them the
all-zeros and the all-ones word. -/
def Obligations.ReservedOpcodesAreThoseListed : Prop :=
  (∀ w : CmdWord, decode w = .error (.reserved (opField w)) ↔ reservedOp (opField w).toNat = true) ∧
  ((List.range 256).filter reservedOp).length = 218 ∧
  decode 0x000000 = .error (.reserved 0x00) ∧ decode 0xFFFFFF = .error (.reserved 0xFF)

/-- Words written out bit by bit from R73 decode to the commands they stand for. -/
def Obligations.SampleWordsDecode : Prop :=
  decode 0b000000010000000000000000 = .ok (.init 0) ∧
  decode 0b000000100000000000001001 = .ok (.read 9) ∧
  decode 0b000100000000000000010111 = .ok (.setLineInputLeftVolume 0x17) ∧
  decode 0b000110111111111111111111 = .ok (.setHeadphoneRightSimultaneousUpdate 0xFFFF) ∧
  decode 0b001000010000000000000011 = .ok (.setSidetoneLevel 3) ∧
  decode 0b001010010000000000000101 = .ok (.setDeemphasisMode 5) ∧
  decode 0b001100001010101111001101 = .ok (.powerOn 0xABCD) ∧
  decode 0b001111000000000000000010 = .ok (.setDataFormat 2) ∧
  decode 0b010000100000000000011000 = .ok (.setSampleRateCode 0x18) ∧
  decode 0b010010011111111111111111 = .ok (.busDisable 0xFFFF)

/-- The written form of every command assembles to its word: with its operand where it has one, with `arg = 0x0000` where the
operand is ignored; a register name stands for its address in `read` (R76). -/
def Obligations.WrittenCommandsAssemble : Prop :=
  (∀ i : Instr, takesOperand i = true → assemble ⟨i.mnemonic, some (.number i.arg.toNat)⟩ = some (encode i)) ∧
  (∀ i : Instr, takesOperand i = false → assemble ⟨i.mnemonic, none⟩ = some (i.opcode ++ (0 : Word))) ∧
  (∀ a : RegAddr, ∃ name, registerNames[a.val]? = some name ∧
    assemble ⟨"read", some (.register name)⟩ = some (encode (.read (BitVec.ofNat 16 a.val))))

-- ==== The step (00_scope.md R9, 10_state.md R41) ====

/-- A command presented to a ready core is decoded and run, whole; the step does nothing beside it but take it off the input
list. `withFetchWord` places it there. A word that decodes to nothing is answered with `ErrIllegal` (R201). The input list and the whole command as one step are the model's choice (log entries
1, 2 and 9). -/
def Obligations.StepRunsTheDecodedCommand : Prop :=
  (∀ (s : State) (w : CmdWord) (rest : List Input) (i : Instr),
    s.inputs = .command w :: rest → s.seq = .ready → decode w = .ok i →
      step s = exec i { s with inputs := rest }) ∧
  (∀ (s : State) (i : Instr),
    decode (encode i) = .ok i →
      step (s.withFetchWord 24 (encode i).toNat) = exec i { s with seq := .ready }) ∧
  (∀ (s : State) (w : CmdWord) (rest : List Input) (e : DecodeError),
    s.inputs = .command w :: rest → s.seq = .ready → decode w = .error e →
      step s = .next (State.afterAnswer { s with inputs := rest } .errIllegal 0))

/-- A step that runs no whole command is one clock edge: the edge the host gives, an edge at which it goes on presenting a
command to a busy core (R41), or an idle edge. The input list is the model's choice (log entries 1 and 2). -/
def Obligations.StepIsOtherwiseOneClockEdge : Prop :=
  (∀ (s : State) (p : PortIn) (rest : List Input),
    s.inputs = .edge p :: rest → step s = .next (edge cfg p { s with inputs := rest })) ∧
  (∀ (s : State) (w : CmdWord) (rest : List Input),
    s.inputs = .command w :: rest → s.seq = .busy → step s = .next (edge cfg (presenting w) s)) ∧
  (∀ s : State, s.inputs = [] → step s = .next (edge cfg idlePorts s))

/-- R201: a command word with a reserved `op`, one of 218, is answered with `ErrIllegal` in both states of `initialized`, and
nothing else happens: at the operation level, and at the cycle level, where it is one edge. No command of the table answers
`ErrIllegal`. -/
def Obligations.ReservedWordAnsweredErrIllegal : Prop :=
  (∀ (c : Cfg) (s : State c.nRegs) (w : CmdWord), c.wf = true → reservedOp (opField w).toNat = true →
    execute c w s = s.afterAnswer .errIllegal 0 ∧
    (s.seq = .ready → edge c (presenting w) s = s.afterAnswer .errIllegal 0)) ∧
  ((List.range 256).filter reservedOp).length = 218 ∧
  (∀ (i : Instr) (s : State), ∃ t, exec i s = .next t ∧ t.rspStatus ≠ .errIllegal)

/-- The core has no undefined behaviour: from every state, reached or not, every step has a next state (R209). -/
def Obligations.EveryStepHasANextState : Prop :=
  ∀ s : State, ∃ t, step s = .next t

-- ==== The commands, family by family ====

/-- R130 to R135: the line-input setters. -/
def Obligations.LineInputSettersWriteTheirField : Prop :=
  WritesWord 0x10 .setLineInputLeftVolume 0 (fun old arg => (old &&& 0xFFE0#16) ||| (arg &&& 0x001F#16)) ∧
  WritesWord 0x11 .setLineInputRightVolume 1 (fun old arg => (old &&& 0xFFE0#16) ||| (arg &&& 0x001F#16)) ∧
  WritesWord 0x12 .setLineInputLeftSimultaneousUpdate 0 (fun old arg => (old &&& 0xFEFF#16) ||| ((arg <<< 8) &&& 0x0100#16)) ∧
  WritesWord 0x13 .setLineInputRightSimultaneousUpdate 1 (fun old arg => (old &&& 0xFEFF#16) ||| ((arg <<< 8) &&& 0x0100#16)) ∧
  WritesWord 0x14 .setLineInputLeftMute 0 (fun old arg => (old &&& 0xFF7F#16) ||| ((arg <<< 7) &&& 0x0080#16)) ∧
  WritesWord 0x15 .setLineInputRightMute 1 (fun old arg => (old &&& 0xFF7F#16) ||| ((arg <<< 7) &&& 0x0080#16))

/-- R136 to R141: the headphone setters. -/
def Obligations.HeadphoneSettersWriteTheirField : Prop :=
  WritesWord 0x16 .setHeadphoneLeftVolume 2 (fun old arg => (old &&& 0xFF80#16) ||| (arg &&& 0x007F#16)) ∧
  WritesWord 0x17 .setHeadphoneRightVolume 3 (fun old arg => (old &&& 0xFF80#16) ||| (arg &&& 0x007F#16)) ∧
  WritesWord 0x18 .setHeadphoneLeftZeroCross 2 (fun old arg => (old &&& 0xFF7F#16) ||| ((arg <<< 7) &&& 0x0080#16)) ∧
  WritesWord 0x19 .setHeadphoneRightZeroCross 3 (fun old arg => (old &&& 0xFF7F#16) ||| ((arg <<< 7) &&& 0x0080#16)) ∧
  WritesWord 0x1A .setHeadphoneLeftSimultaneousUpdate 2 (fun old arg => (old &&& 0xFEFF#16) ||| ((arg <<< 8) &&& 0x0100#16)) ∧
  WritesWord 0x1B .setHeadphoneRightSimultaneousUpdate 3 (fun old arg => (old &&& 0xFEFF#16) ||| ((arg <<< 8) &&& 0x0100#16))

/-- R150 to R156: the analog-path setters. -/
def Obligations.AnalogPathSettersWriteTheirField : Prop :=
  WritesWord 0x20 .setSidetoneEnable 4 (fun old arg => (old &&& 0xFFDF#16) ||| ((arg <<< 5) &&& 0x0020#16)) ∧
  WritesWord 0x21 .setSidetoneLevel 4 (fun old arg => (old &&& 0xFF3F#16) ||| ((arg <<< 6) &&& 0x00C0#16)) ∧
  WritesWord 0x22 .setDacInputSelect 4 (fun old arg => (old &&& 0xFFEF#16) ||| ((arg <<< 4) &&& 0x0010#16)) ∧
  WritesWord 0x23 .setAnalogBypass 4 (fun old arg => (old &&& 0xFFF7#16) ||| ((arg <<< 3) &&& 0x0008#16)) ∧
  WritesWord 0x24 .setInputSelect 4 (fun old arg => (old &&& 0xFFFB#16) ||| ((arg <<< 2) &&& 0x0004#16)) ∧
  WritesWord 0x25 .setMicMute 4 (fun old arg => (old &&& 0xFFFD#16) ||| ((arg <<< 1) &&& 0x0002#16)) ∧
  WritesWord 0x26 .setMicBoost 4 (fun old arg => (old &&& 0xFFFE#16) ||| (arg &&& 0x0001#16))

/-- R157 to R159: the digital-path setters. -/
def Obligations.DigitalPathSettersWriteTheirField : Prop :=
  WritesWord 0x28 .setDacMute 5 (fun old arg => (old &&& 0xFFF7#16) ||| ((arg <<< 3) &&& 0x0008#16)) ∧
  WritesWord 0x29 .setDeemphasisMode 5 (fun old arg => (old &&& 0xFFF9#16) ||| ((arg <<< 1) &&& 0x0006#16)) ∧
  WritesWord 0x2A .setAdcHighpassFilter 5 (fun old arg => (old &&& 0xFFFE#16) ||| (arg &&& 0x0001#16))

/-- R170, R171: the power commands store and send a fixed word, whatever the old word and the operand. -/
def Obligations.PowerCommandsWriteTheirWord : Prop :=
  WritesWord 0x30 .powerOn 6 (fun _ _ => 0x01FF#16) ∧
  WritesWord 0x31 .powerOff 6 (fun _ _ => 0x0000#16)

/-- R180 to R184: the interface-format setters. -/
def Obligations.InterfaceFormatSettersWriteTheirField : Prop :=
  WritesWord 0x38 .setInterfaceMode 7 (fun old arg => (old &&& 0xFFBF#16) ||| ((arg <<< 6) &&& 0x0040#16)) ∧
  WritesWord 0x39 .setLeftRightSwap 7 (fun old arg => (old &&& 0xFFDF#16) ||| ((arg <<< 5) &&& 0x0020#16)) ∧
  WritesWord 0x3A .setBitClockPhase 7 (fun old arg => (old &&& 0xFFEF#16) ||| ((arg <<< 4) &&& 0x0010#16)) ∧
  WritesWord 0x3B .setSampleWidth 7 (fun old arg => (old &&& 0xFFF3#16) ||| ((arg <<< 2) &&& 0x000C#16)) ∧
  WritesWord 0x3C .setDataFormat 7 (fun old arg => (old &&& 0xFFFC#16) ||| (arg &&& 0x0003#16))

/-- R185 to R189: the sample-rate setters. -/
def Obligations.SampleRateSettersWriteTheirField : Prop :=
  WritesWord 0x40 .setClockIn 8 (fun old arg => (old &&& 0xFFBF#16) ||| ((arg <<< 6) &&& 0x0040#16)) ∧
  WritesWord 0x41 .setClockOut 8 (fun old arg => (old &&& 0xFF7F#16) ||| ((arg <<< 7) &&& 0x0080#16)) ∧
  WritesWord 0x42 .setSampleRateCode 8 (fun old arg => (old &&& 0xFFC3#16) ||| ((arg <<< 2) &&& 0x003C#16)) ∧
  WritesWord 0x43 .setOversamplingRatio 8 (fun old arg => (old &&& 0xFFFD#16) ||| ((arg <<< 1) &&& 0x0002#16)) ∧
  WritesWord 0x44 .setClockMode 8 (fun old arg => (old &&& 0xFFFE#16) ||| (arg &&& 0x0001#16))

/-- R195, R196: bus enable and bus disable write the constants 1 and 0 into bit 0 of register 9, whatever the operand. -/
def Obligations.BusCommandsWriteTheirConstant : Prop :=
  WritesWord 0x48 .busEnable 9 (fun old _ => (old &&& 0xFFFE#16) ||| 0x0001#16) ∧
  WritesWord 0x49 .busDisable 9 (fun old _ => old &&& 0xFFFE#16)

/-- R114: `read` answers the entry for an address below `N_REGS`, `ErrAddr` for any other (all 16 bits of the operand count),
`ErrUninit` before `init`, and changes nothing but the response. -/
def Obligations.ReadAnswersTheEntry : Prop :=
  ∀ (arg : Word) (s : State),
    decode (0x02#8 ++ arg) = .ok (.read arg) ∧
    (s.initialized = true → ∀ h : arg.toNat < 10,
      exec (.read arg) s = .next (s.afterAnswer .ok (s.readShadow ⟨arg.toNat, h⟩))) ∧
    (s.initialized = true → 10 ≤ arg.toNat → exec (.read arg) s = .next (s.afterAnswer .errAddr 0)) ∧
    (s.initialized = false → exec (.read arg) s = .next (s.afterAnswer .errUninit 0))

/-- R115 with the words of R24: `init`, in either state and with any operand, loads every entry with its default, sends the
ten frames in ascending address order, sets `initialized` and answers `(OK, 0x0000)`. -/
def Obligations.InitLoadsAndSendsTheDefaults : Prop :=
  ∀ (arg : Word) (s : State),
    decode (0x01#8 ++ arg) = .ok (.init arg) ∧
    ∃ t, exec (.init arg) s = .next t ∧
      t.shadow = #v[0x0097, 0x0097, 0x00F9, 0x00F9, 0x000A, 0x0008, 0x0007, 0x0001, 0x0020, 0x0000] ∧
      t.initialized = true ∧
      t.trace = s.trace ++
        ([0x0097, 0x0297, 0x04F9, 0x06F9, 0x080A, 0x0A08, 0x0C07, 0x0E01, 0x1020, 0x1200] : List Frame).flatMap frameTrace ∧
      t.lines = ⟨true, false, false⟩ ∧
      t.rspValid = true ∧ t.rspStatus = .ok ∧ t.rspData = 0 ∧
      t.responses = s.responses ++ [⟨.ok, 0⟩] ∧
      t.seq = s.seq ∧ t.inputs = s.inputs ∧ t.resets = s.resets

-- ==== Whole-machine rules of the operation level ====

/-- R202, R207: before `init`, every command but `init` is answered with `ErrUninit`, and nothing but the response changes. -/
def Obligations.NothingButInitRunsBeforeInit : Prop :=
  ∀ (i : Instr) (s : State), (∀ arg, i ≠ .init arg) → s.initialized = false →
    exec i s = .next (s.afterAnswer .errUninit 0)

/-- R206: the priority of the causes: reset over everything, then `ErrIllegal`, then `ErrUninit`, then `ErrAddr`. -/
def Obligations.ErrorPriorityIsFixed : Prop :=
  ∀ (c : Cfg) (w : CmdWord) (s : State c.nRegs), c.wf = true →
    (∀ p : PortIn, p.rst = true → edge c p s = resetEdge c s) ∧
    (reservedOp (opField w).toNat = true → execute c w s = s.afterAnswer .errIllegal 0) ∧
    (reservedOp (opField w).toNat = false → opField w ≠ 0x01 → s.initialized = false →
      execute c w s = s.afterAnswer .errUninit 0) ∧
    (opField w = 0x02 → s.initialized = true → c.nRegs ≤ (argField w).toNat →
      execute c w s = s.afterAnswer .errAddr 0)

/-- R42, R200: every command issues exactly one response, which the response port shows; with a status other than `OK` its
data is zero, and only `read` answers data. -/
def Obligations.EveryCommandAnswersOnce : Prop :=
  ∀ (i : Instr) (s : State), ∃ t r, exec i s = .next t ∧
    t.responses = s.responses ++ [r] ∧
    t.rspValid = true ∧ t.rspStatus = r.status ∧ t.rspData = r.data ∧
    (r.status ≠ .ok → r.data = 0) ∧ ((∀ arg, i ≠ .read arg) → r.data = 0)

/-- R21: a field setter, `bus_enable` and `bus_disable` leave every entry but their Field Descriptor's as it was, `power_on`
and `power_off` every entry but the power register, `read` and every refused command all of them; `init` writes every entry.
No command touches the flag but `init` (R22). -/
def Obligations.CommandWritesAtMostOneEntry : Prop :=
  ∀ (i : Instr) (s : State), ∃ t, exec i s = .next t ∧
    (∀ fd v, actionOf cfg i = .masked fd v → ∀ b, b ≠ fd.reg → t.readShadow b = s.readShadow b) ∧
    (∀ a w, actionOf cfg i = .full a w → a = 6 ∧ ∀ b, b ≠ a → t.readShadow b = s.readShadow b) ∧
    (∀ arg, actionOf cfg i = .read arg → t.shadow = s.shadow) ∧
    (t.rspStatus ≠ .ok → t.shadow = s.shadow) ∧
    (actionOf cfg i = .init → ∀ a, t.readShadow a = defaultTable[a.val]) ∧
    (actionOf cfg i ≠ .init → t.initialized = s.initialized) ∧
    t.seq = s.seq ∧ t.inputs = s.inputs ∧ t.resets = s.resets

/-- R59, R116: write-through. A command sends whole frames only, each carries an entry as it is stored after the command, and
every entry that the command changed is among them. -/
def Obligations.ChangedEntriesAreSent : Prop :=
  ∀ (i : Instr) (s t : State), exec i s = .next t →
    ∃ fs : List Frame, t.trace = s.trace ++ fs.flatMap frameTrace ∧
      (∀ f ∈ fs, ∃ a, f = frameOf a (t.readShadow a)) ∧
      (∀ a, t.readShadow a ≠ s.readShadow a → frameOf a (t.readShadow a) ∈ fs)

/-- R22: `initialized` is set by the completion of `init` and by nothing else, and only a reset edge clears it. -/
def Obligations.InitializedChangesOnlyByInitAndReset : Prop :=
  ∀ s t : State, step s = .next t →
    (s.initialized = false → t.initialized = true →
      (∃ w rest, s.inputs = .command w :: rest ∧ s.seq = .ready ∧ opField w = 0x01) ∨
      (s.seq = .busy ∧ s.isInit = true)) ∧
    (s.initialized = true → t.initialized = false →
      ∃ p rest, s.inputs = .edge p :: rest ∧ p.rst = true)

-- ==== The arithmetic of the generic masked write (41_model_core.md R113, R117 to R119) ====

/-- R119: a field takes the low bits of the value, whatever the value's width, and every bit outside the field is
untouched. -/
def Obligations.MaskedWriteStoresLowBitsOnly : Prop :=
  ∀ (n : Nat) (fd : FieldDescriptor n), fd.wf = true → ∀ old v : Word,
    (mergeField fd old v).extractLsb' fd.shift fd.width = v.extractLsb' 0 fd.width ∧
    mergeField fd old v &&& ~~~fd.mask = old &&& ~~~fd.mask

/-- R113 (a), (d), (e): the field's bits are the low bits of the value shifted into place, the same in any wider width; zero
clears the field and all ones set it; the old value of the field does not matter. -/
def Obligations.MaskedWriteLaws : Prop :=
  ∀ (n : Nat) (fd : FieldDescriptor n), fd.wf = true → ∀ v : Word,
    fieldBits fd v = (v.extractLsb' 0 fd.width).setWidth 16 <<< fd.shift ∧
    (∀ m, 16 ≤ m → (v.setWidth m <<< fd.shift) &&& fd.mask.setWidth m = (fieldBits fd v).setWidth m) ∧
    fieldBits fd 0 = 0 ∧ fieldBits fd 0xFFFF = fd.mask ∧
    ∀ old old' : Word, old &&& ~~~fd.mask = old' &&& ~~~fd.mask → mergeField fd old v = mergeField fd old' v

/-- R118: two setters of different fields of one register keep each other's field, in either order, and every other bit of
the register. -/
def Obligations.FieldsOfOneRegisterAreIsolated : Prop :=
  ∀ (c : Cfg) (f g : FieldName) (u v : Word) (s : State c.nRegs), c.wf = true → f ≠ g →
    (c.fields f).reg = (c.fields g).reg →
    let fd := c.fields f
    let gd := c.fields g
    let word := (s.readShadow fd.reg &&& ~~~(fd.mask ||| gd.mask)) ||| fieldBits fd u ||| fieldBits gd v
    (maskedWrite gd v (maskedWrite fd u s)).readShadow fd.reg = word ∧
    (maskedWrite fd u (maskedWrite gd v s)).readShadow fd.reg = word

/-- R117: the same setter twice with the same value leaves the same table, and sends two identical transactions. -/
def Obligations.SameSetterTwiceSendsTwice : Prop :=
  ∀ (n : Nat) (fd : FieldDescriptor n) (v : Word) (s : State n),
    let t := maskedWrite fd v s
    let u := maskedWrite fd v t
    u.shadow = t.shadow ∧
    ∃ f, t.trace = s.trace ++ frameTrace f ∧ u.trace = s.trace ++ frameTrace f ++ frameTrace f

/-- R27, R3, U12: the instance is well formed for every delay; the fields of each register cover the bits R27 names, no bit
twice. -/
def Obligations.InstanceIsWellFormed : Prop :=
  (∀ d m, (instanceCfg d m).wf = true) ∧
  (∀ f, (fieldTable f).shift + (fieldTable f).width ≤ 9) ∧
  (allRegs 10).map (fun a => ((FieldName.all.filter (fun f => (fieldTable f).reg == a)).map (fun f => (fieldTable f).mask)).foldl
      (· ||| ·) 0) =
    [0x019F, 0x019F, 0x01FF, 0x01FF, 0x00FF, 0x000F, 0x0000, 0x007F, 0x00FF, 0x0001] ∧
  (allRegs 10).map (fun a => ((FieldName.all.filter (fun f => (fieldTable f).reg == a)).map (fun f => (fieldTable f).width)).sum) =
    [7, 7, 9, 9, 8, 4, 0, 7, 8, 1]

-- ==== The transmitter (40_transmitter.md) ====

/-- R77, R78: the frame of a word: the address in bits 15..9, the low nine bits of the word in bits 8..0, so that bits 15..9
of the word are not sent; in a well-formed `Cfg` every address fits its field. -/
def Obligations.FrameCarriesAddressThenData : Prop :=
  (∀ (c : Cfg) (a : Fin c.nRegs) (w : Word), c.wf = true →
    ((frameOf a w).extractLsb' 9 7).toNat = a.val ∧ (frameOf a w).extractLsb' 0 9 = w.extractLsb' 0 9) ∧
  (∀ (a : RegAddr) (w : Word),
    (frameOf a w).extractLsb' 13 3 = 0 ∧ (frameOf a w).extractLsb' 9 4 = BitVec.ofNat 4 a.val) ∧
  frameOf (8 : RegAddr) 0x0020 = 0x1020

/-- R92, R94, R99: one transaction has 50 events whatever the frame, 2 on `CS`, 32 on `SCLK` and 16 on `SDAT`, and its
`k`-th event is the event of step `k`. -/
def Obligations.TransactionHasFiftyEvents : Prop :=
  ∀ f : Frame,
    (frameTrace f).length = 50 ∧
    (∀ k : Fin 50, (frameTrace f)[k.val]? = some (lineEventAt f k.val)) ∧
    ((frameTrace f).filter (fun e => e == .cs true || e == .cs false)).length = 2 ∧
    ((frameTrace f).filter (fun e => e == .sclk true || e == .sclk false)).length = 32 ∧
    ((frameTrace f).filter (fun e => e == .sdat true || e == .sdat false)).length = 16

/-- R97: a listener at rest hears 16 pulses and the frame itself, most significant bit first; `CS` is low from the first event
to the last but one; `SDAT` holds bit `j` from before its rise of `SCLK` to the fall that ends the pulse. -/
def Obligations.ListenerHearsTheFrame : Prop :=
  (∀ (l : Listener) (f : Frame), l.lines.atRest →
    (frameTrace f).foldl Listener.hear l = ⟨⟨true, false, f.getLsbD 0⟩, 16, f, l.frames ++ [f]⟩) ∧
  (∀ (f : Frame) (k : Nat), 1 ≤ k → k ≤ 49 → (replay ((frameTrace f).take k)).cs = false) ∧
  (∀ (f : Frame) (j : Nat), j < 16 → ∀ n, 2 ≤ n → n ≤ 4 →
    (replay ((frameTrace f).take (3 * j + n))).sdat = f.getLsbD (15 - j))

/-- R63, R92, R97: what a listener reads off the lines of a command run from rest: one frame for a writing command, ten frames
of ascending address for `init`, none for any other answer. -/
def Obligations.CommandsAreHeardAsTheirFrames : Prop :=
  ∀ (i : Instr) (s t : State), exec i s = .next t → (replay s.trace).atRest →
    (replay t.trace).atRest ∧
    ∃ fs : List Frame, framesSent t.trace = framesSent s.trace ++ fs ∧
      (actionOf cfg i = .init → fs = (allRegs 10).map (fun a => frameOf a (defaultTable[a.val]))) ∧
      (∀ fd v, actionOf cfg i = .masked fd v → s.initialized = true → fs = [frameOf fd.reg (t.readShadow fd.reg)]) ∧
      (∀ a w, actionOf cfg i = .full a w → s.initialized = true → fs = [frameOf a w]) ∧
      (t.rspStatus ≠ .ok → fs = []) ∧ (∀ arg, actionOf cfg i = .read arg → fs = [])

-- ==== Reset (10_state.md R47, 70_reset_and_hazards.md R230 to R232) ====

/-- R47: the state after reset, every value the table gives. -/
def Obligations.ResetStateHasTheValuesOfTheTable : Prop :=
  State.reset.initialized = false ∧ State.reset.seq = .ready ∧ State.reset.isInit = false ∧ State.reset.initIdx = 0 ∧
  State.reset.txFrame = 0 ∧ State.reset.txStep = 0 ∧ State.reset.txCnt = 0 ∧
  State.reset.lines = ⟨true, false, false⟩ ∧
  State.reset.rspValid = false ∧ State.reset.rspStatus.code = 0 ∧ State.reset.rspData = 0

/-- R230 to R232: an edge with `rst = 1` puts every state element at its reset value, from any state and whatever else is
presented; the interrupted command gets no response, and no frame is completed. That the logs are kept is the model's choice
(log entry 5), and so is that a frame cut by the reset edge counts as none, even after all its 16 pulses (log entry 13). -/
def Obligations.ResetEdgeRestoresTheTable : Prop :=
  ∀ (c : Cfg) (p : PortIn) (s : State c.nRegs), c.wf = true → p.rst = true →
    let t := edge c p s
    t.initialized = false ∧ t.seq = .ready ∧ t.isInit = false ∧ t.initIdx.val = 0 ∧
    t.txFrame = 0 ∧ t.txStep = 0 ∧ t.txCnt = 0 ∧ t.lines = ⟨true, false, false⟩ ∧
    t.rspValid = false ∧ t.rspStatus.code = 0 ∧ t.rspData = 0 ∧
    t.responses = s.responses ∧ framesSent t.trace = framesSent s.trace

/-- R232 at the numbers of vector V7: `bus_enable` accepted with `DELAY = 0`, reset at the tenth edge: two pulses were
complete and the third was high, the lines go to rest together, nothing is answered. -/
def Obligations.ResetTearsARunningFrame : Prop :=
  let c := instanceCfg 0 0
  let s := execute c 0x010000 State.reset
  let t := idleEdges c 9 (edge c (presenting 0x480000) s)
  let u := edge c ⟨true, false, 0⟩ t
  t.lines.cs = false ∧ t.lines.sclk = true ∧ t.txStep = 9 ∧
  u.lines = ⟨true, false, false⟩ ∧ u.initialized = false ∧ u.seq = .ready ∧
  u.responses = s.responses ∧ framesSent u.trace = framesSent s.trace ∧
  (execute c 0x020009 u).rspStatus = .errUninit

-- ==== The cycle level (41_model_core.md R122 to R124, 40_transmitter.md R98) ====

/-- R41: `cmd_ready` is 1 exactly in `READY`, and while it is 0 nothing that the command port presents has an effect. -/
def Obligations.BusyCoreIgnoresTheCommandPort : Prop :=
  ∀ (c : Cfg) (s : State c.nRegs), c.wf = true →
    (s.cmdReady = true ↔ s.seq = .ready) ∧
    (s.cmdReady = false → ∀ p q : PortIn, p.rst = q.rst → edge c p s = edge c q s)

/-- R98: event `E_k` of a frame takes effect at edge `1 + k * (DELAY + 1)` after the frame is loaded: after `n` edges the lines
have seen exactly the first `(n + DELAY) / (DELAY + 1)` events, to the end of the frame. -/
def Obligations.FrameEventsKeepTheSchedule : Prop :=
  ∀ (c : Cfg) (a : Fin c.nRegs) (w : Word) (s : State c.nRegs) (n : Nat), c.wf = true → n ≤ 50 * (c.delay + 1) →
    (idleEdges c n (load a w s)).trace =
      s.trace ++ (frameTrace (frameOf a w)).take ((n + c.delay) / (c.delay + 1))

/-- R123, R244: from the accepting edge until the edge of the response the core is busy, answers nothing, and does not yet
raise `initialized`; then it is ready, with one response more, and `rsp_valid` is 1 for that one cycle; from the next edge on,
while nothing is presented, `rsp_valid` is 0 and the status and data hold their values (R42). -/
def Obligations.CoreIsBusyUntilTheResponse : Prop :=
  ∀ (c : Cfg) (w : CmdWord) (s : State c.nRegs), c.wf = true → s.seq = .ready →
    let u := edge c (presenting w) s
    let r := idleEdges c (latency c w s) u
    (∀ n, n < latency c w s →
      let t := idleEdges c n u
      t.seq = .busy ∧ t.rspValid = false ∧ t.responses = s.responses ∧ t.initialized = s.initialized) ∧
    r.seq = .ready ∧ r.rspValid = true ∧ r.responses = s.responses ++ [⟨r.rspStatus, r.rspData⟩] ∧
    (∀ n, latency c w s < n → idleEdges c n u = { r with rspValid := false })

/-- R9, R123, R124: the cycle level refines the operation level, for one command: the accepting edge and then as many edges as
the command's latency end in exactly the state that `Execute` gives, every field of it, for every well-formed
`Cfg`, so for every delay. -/
def Obligations.CommandRunRefinesOperation : Prop :=
  ∀ (c : Cfg) (w : CmdWord) (s : State c.nRegs), c.wf = true → s.seq = .ready →
    idleEdges c (latency c w s) (edge c (presenting w) s) = execute c w s

/-- R124: the cycle level refines the operation level, for every host: whatever the ports carry at any number of edges
without reset, the core, when ready, is in the state that the accepted words give at the operation level, but for the
response port's valid bit, which lasts one cycle; when busy, it gets there by itself. -/
def Obligations.AnyHostRunRefinesOperationLevel : Prop :=
  ∀ (c : Cfg) (ps : List PortIn) (s : State c.nRegs), c.wf = true → s.seq = .ready → (∀ p ∈ ps, p.rst = false) →
    let t := edges c ps s
    let u := executeAll c (acceptedWords c ps s) s
    (t.seq = .ready → t.SameButValid u) ∧
    (∃ n, n ≤ c.nRegs * (50 * (c.delay + 1)) ∧ (idleEdges c n t).seq = .ready ∧ (idleEdges c n t).SameButValid u)

/-- R116: the delay changes when line events happen, never which, nor in what order, nor anything else that a command
leaves. -/
def Obligations.DelayChangesOnlyTheTiming : Prop :=
  ∀ (c : Cfg) (d : Nat) (w : CmdWord) (s : State c.nRegs), c.wf = true → s.seq = .ready →
    let c' : Cfg := { c with delay := d }
    idleEdges c (latency c w s) (edge c (presenting w) s) = idleEdges c' (latency c' w s) (edge c' (presenting w) s)

-- ==== Invariants and whole-machine properties ====

/-- The invariant holds after reset (R47). -/
def Obligations.InvariantHoldsAtReset : Prop :=
  State.reset.Inv

/-- Every step, from every state that meets the invariant, keeps it: the lines stand as the events have set them and rest
between transactions (R43, R96), the running frame is as far as its registers say (R46, R99) and carries an entry as stored
(R59), only `init` runs uninitialized (R202), and bits 15..9 of every loaded entry are zero (R28). -/
def Obligations.EveryStepKeepsTheInvariant : Prop :=
  ∀ s t : State, s.Inv → step s = .next t → t.Inv

/-- R47, R202: what the shadow table holds before `init` cannot be observed: two states that differ only there are observed
alike after any number of steps. -/
def Obligations.UnresetTableIsNeverObserved : Prop :=
  ∀ (k : Nat) (s t : State), s.Alike t →
    ∃ s' t', core.run k s = .next s' ∧ core.run k t = .next t' ∧ s'.observed = t'.observed

/-- R215: an accepted command is answered: from every busy state that meets the invariant, at most `500 * (DELAY + 1)` edges
lead to `READY`, with one response `(OK, 0x0000)` more. -/
def Obligations.EveryAcceptedCommandIsAnswered : Prop :=
  ∀ s : State, s.Inv → s.seq = .busy →
    ∃ n, n ≤ 500 * (cfg.delay + 1) ∧ (idleEdges cfg n s).seq = .ready ∧
      (idleEdges cfg n s).responses = s.responses ++ [⟨.ok, 0⟩]

-- ==== The configuration, the counter and the response port ====

/-- R2: the machine is the core that its own `Cfg` configures: `step` is `stepFor`, which takes any `Cfg`, at the instance,
whatever the number of registers of another. -/
def Obligations.StepIsTheInstanceOfStepFor : Prop :=
  cfg.nRegs = 10 ∧ cfg.delay = Config.delay ∧ ∀ s : State, step s = stepFor cfg s

/-- R211: `tx_cnt` counts from 0 to `DELAY` in a counter of `ceil(log2(DELAY + 1))` bits, the least width that holds
`DELAY`, so that it never wraps. -/
def Obligations.TxCounterFitsItsWidth : Prop :=
  ∀ (c : Cfg), c.wf = true →
    (∀ b, cntWidth c.delay ≤ b ↔ c.delay < 2 ^ b) ∧
    (∀ (p : PortIn) (s : State c.nRegs), s.txCnt ≤ c.delay → (edge c p s).txCnt ≤ c.delay) ∧
    (∀ (p : PortIn) (s : State c.nRegs), p.rst = false → s.seq = .busy → s.txCnt < c.delay →
      (edge c p s).txCnt = s.txCnt + 1)

/-- R42: at an edge without reset, either exactly one response is issued, and the response port shows it, or none is, and
then `rsp_valid` is 0 and `rsp_status` and `rsp_data` hold their values. So `rsp_valid` is 1 for one cycle only. The log of
responses is the model's own field (log entry 5). -/
def Obligations.ResponsePortShowsEachResponseForOneCycle : Prop :=
  ∀ (c : Cfg) (p : PortIn) (s : State c.nRegs), c.wf = true → p.rst = false →
    let t := edge c p s
    (t.rspValid = true ∧ t.responses = s.responses ++ [⟨t.rspStatus, t.rspData⟩]) ∨
    (t.rspValid = false ∧ t.responses = s.responses ∧ t.rspStatus = s.rspStatus ∧ t.rspData = s.rspData)
end

