-- ==== Sys2Proof/Laws/State.lean ====
section
/-!
SUPPORT. Every field after every elementary update of the state, so that no proof unfolds a record update.
-/

namespace Sys2Proof.Machine

variable {n : Nat}

section WriteShadow

variable (s : State n) (a : Fin n) (v : Word)

@[simp] theorem writeShadow_shadow : (s.writeShadow a v).shadow = s.shadow.set a.val v := rfl
@[simp] theorem writeShadow_initialized : (s.writeShadow a v).initialized = s.initialized := rfl
@[simp] theorem writeShadow_seq : (s.writeShadow a v).seq = s.seq := rfl
@[simp] theorem writeShadow_isInit : (s.writeShadow a v).isInit = s.isInit := rfl
@[simp] theorem writeShadow_initIdx : (s.writeShadow a v).initIdx = s.initIdx := rfl
@[simp] theorem writeShadow_txFrame : (s.writeShadow a v).txFrame = s.txFrame := rfl
@[simp] theorem writeShadow_txStep : (s.writeShadow a v).txStep = s.txStep := rfl
@[simp] theorem writeShadow_txCnt : (s.writeShadow a v).txCnt = s.txCnt := rfl
@[simp] theorem writeShadow_lines : (s.writeShadow a v).lines = s.lines := rfl
@[simp] theorem writeShadow_rspValid : (s.writeShadow a v).rspValid = s.rspValid := rfl
@[simp] theorem writeShadow_rspStatus : (s.writeShadow a v).rspStatus = s.rspStatus := rfl
@[simp] theorem writeShadow_rspData : (s.writeShadow a v).rspData = s.rspData := rfl
@[simp] theorem writeShadow_inputs : (s.writeShadow a v).inputs = s.inputs := rfl
@[simp] theorem writeShadow_responses : (s.writeShadow a v).responses = s.responses := rfl
@[simp] theorem writeShadow_trace : (s.writeShadow a v).trace = s.trace := rfl
@[simp] theorem writeShadow_resets : (s.writeShadow a v).resets = s.resets := rfl

end WriteShadow

section SetInitialized

variable (s : State n)

@[simp] theorem setInitialized_shadow : (s.setInitialized).shadow = s.shadow := rfl
@[simp] theorem setInitialized_initialized : (s.setInitialized).initialized = true := rfl
@[simp] theorem setInitialized_seq : (s.setInitialized).seq = s.seq := rfl
@[simp] theorem setInitialized_isInit : (s.setInitialized).isInit = s.isInit := rfl
@[simp] theorem setInitialized_initIdx : (s.setInitialized).initIdx = s.initIdx := rfl
@[simp] theorem setInitialized_txFrame : (s.setInitialized).txFrame = s.txFrame := rfl
@[simp] theorem setInitialized_txStep : (s.setInitialized).txStep = s.txStep := rfl
@[simp] theorem setInitialized_txCnt : (s.setInitialized).txCnt = s.txCnt := rfl
@[simp] theorem setInitialized_lines : (s.setInitialized).lines = s.lines := rfl
@[simp] theorem setInitialized_rspValid : (s.setInitialized).rspValid = s.rspValid := rfl
@[simp] theorem setInitialized_rspStatus : (s.setInitialized).rspStatus = s.rspStatus := rfl
@[simp] theorem setInitialized_rspData : (s.setInitialized).rspData = s.rspData := rfl
@[simp] theorem setInitialized_inputs : (s.setInitialized).inputs = s.inputs := rfl
@[simp] theorem setInitialized_responses : (s.setInitialized).responses = s.responses := rfl
@[simp] theorem setInitialized_trace : (s.setInitialized).trace = s.trace := rfl
@[simp] theorem setInitialized_resets : (s.setInitialized).resets = s.resets := rfl

end SetInitialized

section Respond

variable (st : Status) (d : Word) (s : State n)

@[simp] theorem respond_shadow : (respond st d s).shadow = s.shadow := rfl
@[simp] theorem respond_initialized : (respond st d s).initialized = s.initialized := rfl
@[simp] theorem respond_seq : (respond st d s).seq = s.seq := rfl
@[simp] theorem respond_isInit : (respond st d s).isInit = s.isInit := rfl
@[simp] theorem respond_initIdx : (respond st d s).initIdx = s.initIdx := rfl
@[simp] theorem respond_txFrame : (respond st d s).txFrame = s.txFrame := rfl
@[simp] theorem respond_txStep : (respond st d s).txStep = s.txStep := rfl
@[simp] theorem respond_txCnt : (respond st d s).txCnt = s.txCnt := rfl
@[simp] theorem respond_lines : (respond st d s).lines = s.lines := rfl
@[simp] theorem respond_rspValid : (respond st d s).rspValid = true := rfl
@[simp] theorem respond_rspStatus : (respond st d s).rspStatus = st := rfl
@[simp] theorem respond_rspData : (respond st d s).rspData = d := rfl
@[simp] theorem respond_inputs : (respond st d s).inputs = s.inputs := rfl
@[simp] theorem respond_responses : (respond st d s).responses = s.responses ++ [⟨st, d⟩] := rfl
@[simp] theorem respond_trace : (respond st d s).trace = s.trace := rfl
@[simp] theorem respond_resets : (respond st d s).resets = s.resets := rfl

end Respond

section Emit

variable (e : LineEvent) (s : State n)

@[simp] theorem emit_shadow : (emit e s).shadow = s.shadow := rfl
@[simp] theorem emit_initialized : (emit e s).initialized = s.initialized := rfl
@[simp] theorem emit_seq : (emit e s).seq = s.seq := rfl
@[simp] theorem emit_isInit : (emit e s).isInit = s.isInit := rfl
@[simp] theorem emit_initIdx : (emit e s).initIdx = s.initIdx := rfl
@[simp] theorem emit_txFrame : (emit e s).txFrame = s.txFrame := rfl
@[simp] theorem emit_txStep : (emit e s).txStep = s.txStep := rfl
@[simp] theorem emit_txCnt : (emit e s).txCnt = s.txCnt := rfl
@[simp] theorem emit_lines : (emit e s).lines = e.apply s.lines := rfl
@[simp] theorem emit_rspValid : (emit e s).rspValid = s.rspValid := rfl
@[simp] theorem emit_rspStatus : (emit e s).rspStatus = s.rspStatus := rfl
@[simp] theorem emit_rspData : (emit e s).rspData = s.rspData := rfl
@[simp] theorem emit_inputs : (emit e s).inputs = s.inputs := rfl
@[simp] theorem emit_responses : (emit e s).responses = s.responses := rfl
@[simp] theorem emit_trace : (emit e s).trace = s.trace ++ [e] := rfl
@[simp] theorem emit_resets : (emit e s).resets = s.resets := rfl

end Emit

section Load

variable (a : Fin n) (w : Word) (s : State n)

@[simp] theorem load_shadow : (load a w s).shadow = s.shadow := rfl
@[simp] theorem load_initialized : (load a w s).initialized = s.initialized := rfl
@[simp] theorem load_seq : (load a w s).seq = .busy := rfl
@[simp] theorem load_isInit : (load a w s).isInit = s.isInit := rfl
@[simp] theorem load_initIdx : (load a w s).initIdx = s.initIdx := rfl
@[simp] theorem load_txFrame : (load a w s).txFrame = frameOf a w := rfl
@[simp] theorem load_txStep : (load a w s).txStep = 0 := rfl
@[simp] theorem load_txCnt : (load a w s).txCnt = 0 := rfl
@[simp] theorem load_lines : (load a w s).lines = s.lines := rfl
@[simp] theorem load_rspValid : (load a w s).rspValid = s.rspValid := rfl
@[simp] theorem load_rspStatus : (load a w s).rspStatus = s.rspStatus := rfl
@[simp] theorem load_rspData : (load a w s).rspData = s.rspData := rfl
@[simp] theorem load_inputs : (load a w s).inputs = s.inputs := rfl
@[simp] theorem load_responses : (load a w s).responses = s.responses := rfl
@[simp] theorem load_trace : (load a w s).trace = s.trace := rfl
@[simp] theorem load_resets : (load a w s).resets = s.resets := rfl

end Load

/-- A raised error is a response. -/
@[simp] theorem raiseErr_eq (code : Status) (s : State n) : raiseErr code s = respond code 0 s := rfl

section AfterReset

variable (c : Cfg) (s : State c.nRegs)

@[simp] theorem resetEdge_shadow : (resetEdge c s).shadow = unresetTable c.nRegs (s.resets + 1) := rfl
@[simp] theorem resetEdge_initialized : (resetEdge c s).initialized = false := rfl
@[simp] theorem resetEdge_seq : (resetEdge c s).seq = .ready := rfl
@[simp] theorem resetEdge_isInit : (resetEdge c s).isInit = false := rfl
@[simp] theorem resetEdge_initIdx : (resetEdge c s).initIdx = c.firstReg := rfl
@[simp] theorem resetEdge_txFrame : (resetEdge c s).txFrame = 0 := rfl
@[simp] theorem resetEdge_txStep : (resetEdge c s).txStep = 0 := rfl
@[simp] theorem resetEdge_txCnt : (resetEdge c s).txCnt = 0 := rfl
@[simp] theorem resetEdge_lines : (resetEdge c s).lines = Lines.reset := rfl
@[simp] theorem resetEdge_rspValid : (resetEdge c s).rspValid = false := rfl
@[simp] theorem resetEdge_rspStatus : (resetEdge c s).rspStatus = .ok := rfl
@[simp] theorem resetEdge_rspData : (resetEdge c s).rspData = 0 := rfl
@[simp] theorem resetEdge_inputs : (resetEdge c s).inputs = s.inputs := rfl
@[simp] theorem resetEdge_responses : (resetEdge c s).responses = s.responses := rfl
@[simp] theorem resetEdge_trace : (resetEdge c s).trace = s.trace ++ [.reset] := rfl
@[simp] theorem resetEdge_resets : (resetEdge c s).resets = s.resets + 1 := rfl

end AfterReset

end Sys2Proof.Machine
end

