-- ==== Sys2Proof/Laws/Ops.lean ====
section
/-!
SUPPORT. One lemma for each shared operation that says all it does.
-/

namespace Sys2Proof.Machine

variable {n : Nat}

@[simp] theorem readShadow_writeShadow_self (s : State n) (a : Fin n) (v : Word) :
    (s.writeShadow a v).readShadow a = v := by
  simp [State.readShadow, State.writeShadow]

theorem readShadow_writeShadow_of_ne (s : State n) (a b : Fin n) (v : Word) (h : a ≠ b) :
    (s.writeShadow a v).readShadow b = s.readShadow b := by
  have : a.val ≠ b.val := fun e => h (Fin.ext e)
  simp [State.readShadow, State.writeShadow, this]

/-- Events in order change the lines and the trace and nothing else (R94). -/
theorem emitAll_eq (es : List LineEvent) (s : State n) :
    emitAll es s = { s with lines := es.foldl (fun l e => e.apply l) s.lines, trace := s.trace ++ es } := by
  induction es generalizing s with
  | nil => simp [emitAll]
  | cons e es ih =>
    have h : emitAll (e :: es) s = emitAll es (emit e s) := rfl
    rw [h, ih]
    simp [emit]

/-- The levels after a whole frame do not depend on the levels before it (R96). -/
theorem frameTrace_levels (f : Frame) (l : Lines) :
    (frameTrace f).foldl (fun l e => e.apply l) l = ⟨true, false, f.getLsbD 0⟩ := rfl

@[simp] theorem frameTrace_length (f : Frame) : (frameTrace f).length = 50 := rfl

/-- `Transmit`, whole (R90, R92, R96). -/
theorem transmit_eq (a : BusAddr) (d : BusWord) (s : State n) :
    transmit a d s =
      { s with
        txFrame := makeFrame a d
        txStep  := 49
        txCnt   := 0
        lines   := ⟨true, false, (makeFrame a d).getLsbD 0⟩
        trace   := s.trace ++ frameTrace (makeFrame a d) } := by
  unfold transmit
  rw [emitAll_eq, frameTrace_levels]

/-- The last bit of a frame is bit 0 of the word it carries (R77). -/
theorem frameOf_bit_zero (a : Fin n) (w : Word) : (frameOf a w).getLsbD 0 = w.getLsbD 0 := by
  unfold frameOf makeFrame busWord
  rw [BitVec.getLsbD_append]
  simp

/-- Storing and sending a word, whole (R111, R112). -/
theorem storeAndSend_eq (a : Fin n) (new : Word) (s : State n) : storeAndSend a new s = s.afterWrite a new := by
  unfold storeAndSend
  rw [transmit_eq]
  show respond .ok 0 _ = _
  rw [show makeFrame (busAddr a) (busWord new) = frameOf a new from rfl, frameOf_bit_zero]
  rfl

theorem maskedWrite_eq (fd : FieldDescriptor n) (v : Word) (s : State n) :
    maskedWrite fd v s = s.afterWrite fd.reg (mergeField fd (s.readShadow fd.reg) v) :=
  storeAndSend_eq _ _ _

theorem fullWrite_eq (a : Fin n) (w : Word) (s : State n) : fullWrite a w s = s.afterWrite a w :=
  storeAndSend_eq _ _ _

/-- A response, whole (R42). -/
theorem respond_eq (st : Status) (d : Word) (s : State n) : respond st d s = s.afterAnswer st d := rfl

/-- `read`, whole: it only answers (R55, R114). -/
theorem readRegister_cases (arg : Word) (s : State n) :
    (∃ a : Fin n, a.val = arg.toNat ∧ readRegister arg s = s.afterAnswer .ok (s.readShadow a)) ∨
    (n ≤ arg.toNat ∧ readRegister arg s = s.afterAnswer .errAddr 0) := by
  unfold readRegister readAddress
  by_cases h : arg.toNat < n
  · exact .inl ⟨⟨arg.toNat, h⟩, rfl, by simp [h, respond_eq]⟩
  · exact .inr ⟨by omega, by simp [h, respond_eq]⟩

@[simp] theorem whenInitialized_true (s : State n) (run : State n → State n) (h : s.initialized = true) :
    whenInitialized s run = run s := by simp [whenInitialized, h]

@[simp] theorem whenInitialized_false (s : State n) (run : State n → State n) (h : s.initialized = false) :
    whenInitialized s run = s.afterAnswer .errUninit 0 := by simp [whenInitialized, h, respond_eq]

/-- The transactions of `init` on a list of registers, whole (R115). -/
theorem sendDefaults_eq (c : Cfg) (as : List (Fin c.nRegs)) (b : Fin c.nRegs) (s : State c.nRegs) :
    (as ++ [b]).foldl (sendDefault c) s =
      { s with
        initIdx := b
        txFrame := frameOf b c.defaults[b.val]
        txStep  := 49
        txCnt   := 0
        lines   := ⟨true, false, c.defaults[b.val].getLsbD 0⟩
        trace   := s.trace ++ (as ++ [b]).flatMap (fun a => frameTrace (frameOf a c.defaults[a.val])) } := by
  have hsend : ∀ (t : State c.nRegs) (a : Fin c.nRegs), sendDefault c t a =
      { t with
        initIdx := a
        txFrame := frameOf a c.defaults[a.val]
        txStep  := 49
        txCnt   := 0
        lines   := ⟨true, false, c.defaults[a.val].getLsbD 0⟩
        trace   := t.trace ++ frameTrace (frameOf a c.defaults[a.val]) } := by
    intro t a
    unfold sendDefault
    rw [transmit_eq, show makeFrame (busAddr a) (busWord c.defaults[a.val]) = frameOf a c.defaults[a.val] from rfl,
      frameOf_bit_zero]
  induction as generalizing s with
  | nil => simp [hsend]
  | cons a as ih =>
    rw [List.cons_append, List.foldl_cons, ih, hsend]
    simp [List.append_assoc]

/-- The registers in ascending order end with the last one. -/
theorem allRegs_last (c : Cfg) : ∃ as, allRegs c.nRegs = as ++ [c.lastReg] := by
  have hpos := c.nRegs_pos
  have hlast : c.lastReg.val = c.nRegs - 1 := rfl
  generalize c.lastReg = b at hlast
  generalize c.nRegs = n at *
  cases n with
  | zero => omega
  | succ m =>
    have hb : b = Fin.last m := Fin.ext (by rw [hlast]; rfl)
    exact ⟨(List.finRange m).map Fin.castSucc, by rw [hb]; exact List.finRange_succ_last⟩

/-- `init`, whole (R115): the table, the flag, ten frames in ascending order, one response. -/
theorem initAll_eq (c : Cfg) (s : State c.nRegs) :
    initAll c s =
      { s with
        shadow      := c.defaults
        initialized := true
        isInit      := true
        initIdx     := c.lastReg
        txFrame     := frameOf c.lastReg c.defaults[c.lastReg.val]
        txStep      := 49
        txCnt       := 0
        lines       := ⟨true, false, c.defaults[c.lastReg.val].getLsbD 0⟩
        trace       := s.trace ++ (allRegs c.nRegs).flatMap (fun a => frameTrace (frameOf a c.defaults[a.val]))
        rspValid    := true
        rspStatus   := .ok
        rspData     := 0
        responses   := s.responses ++ [⟨.ok, 0⟩] } := by
  obtain ⟨as, has⟩ := allRegs_last c
  unfold initAll
  rw [has, sendDefaults_eq]
  rfl

/-- A command never looks at its configuration twice: `exec` is `perform` of the command's class (R110). -/
theorem exec_eq_perform (i : Instr) (s : State) : exec i s = .next (perform cfg (actionOf cfg i) s) := by
  cases i <;> rfl

/-- Everything a command can do (R110): before `init` all but `init` answer `ErrUninit`; then a `read` only answers, a
writing command writes one entry and sends it, and `init` loads the table. -/
theorem perform_cases (c : Cfg) (act : Action c.nRegs) (s : State c.nRegs) :
    (act = .init ∧ perform c act s = initAll c s) ∨
    (act ≠ .init ∧ s.initialized = false ∧ perform c act s = s.afterAnswer .errUninit 0) ∨
    (s.initialized = true ∧ ∃ arg, act = .read arg ∧ perform c act s = readRegister arg s) ∨
    (s.initialized = true ∧ ∃ fd v, act = .masked fd v ∧
      perform c act s = s.afterWrite fd.reg (mergeField fd (s.readShadow fd.reg) v)) ∨
    (s.initialized = true ∧ ∃ a w, act = .full a w ∧ perform c act s = s.afterWrite a w) := by
  cases act with
  | init => exact .inl ⟨rfl, rfl⟩
  | read arg =>
    cases h : s.initialized with
    | false => exact .inr (.inl ⟨by simp, rfl, by simp [perform, h]⟩)
    | true => exact .inr (.inr (.inl ⟨rfl, arg, rfl, by simp [perform, h]⟩))
  | masked fd v =>
    cases h : s.initialized with
    | false => exact .inr (.inl ⟨by simp, rfl, by simp [perform, h]⟩)
    | true => exact .inr (.inr (.inr (.inl ⟨rfl, fd, v, rfl, by simp [perform, h, maskedWrite_eq]⟩)))
  | full a w =>
    cases h : s.initialized with
    | false => exact .inr (.inl ⟨by simp, rfl, by simp [perform, h]⟩)
    | true => exact .inr (.inr (.inr (.inr ⟨rfl, a, w, rfl, by simp [perform, h, fullWrite_eq]⟩)))

end Sys2Proof.Machine
end

