-- ==== Sys2Proof/Laws/Cycle.lean ====
section
/-!
SUPPORT. What one clock edge and one step can do, said once (spec 41_model_core.md R122).
-/

namespace Sys2Proof.Machine

/-- An edge with `rst = 1` is a reset edge, whatever else is presented (R40). -/
theorem edge_reset (c : Cfg) (p : PortIn) (s : State c.nRegs) (h : p.rst = true) : edge c p s = resetEdge c s := by
  simp [edge, h]

/-- While busy, a clock edge is a transmitter edge, whatever is presented (R41). -/
theorem edge_busy (c : Cfg) (p : PortIn) (s : State c.nRegs) (h : p.rst = false) (hs : s.seq = .busy) :
    edge c p s = txEdge c.delay { s with rspValid := false } := by
  simp [edge, h, hs]

/-- A ready core with nothing presented only ends the response's cycle (R42). -/
theorem edge_idle (c : Cfg) (p : PortIn) (s : State c.nRegs) (h : p.rst = false) (hv : p.cmdValid = false) (hs : s.seq = .ready) :
    edge c p s = { s with rspValid := false } := by
  simp [edge, h, hv, hs]

/-- A ready core accepts a presented word (R41). -/
theorem edge_accept (c : Cfg) (p : PortIn) (s : State c.nRegs) (h : p.rst = false) (hv : p.cmdValid = true) (hs : s.seq = .ready) :
    edge c p s = accept c p.cmdWord { s with rspValid := false } := by
  simp [edge, h, hv, hs]

/-- The first cycle of a step performs its event; the other cycles perform none (R99). -/
theorem txEvent_cases {n : Nat} (s : State n) :
    (s.txCnt = 0 ∧ txEvent s = emit (lineEventAt s.txFrame s.txStep.val) s) ∨ (s.txCnt ≠ 0 ∧ txEvent s = s) := by
  unfold txEvent
  by_cases h : s.txCnt = 0
  · exact .inl ⟨h, by simp [h]⟩
  · exact .inr ⟨h, by simp [h]⟩

/-- `tx_cnt` has the least width that holds `DELAY` (R211). -/
theorem cntWidth_le_iff (d b : Nat) : cntWidth d ≤ b ↔ d < 2 ^ b := by
  rw [cntWidth, Nat.clog_le_iff_le_pow Nat.one_lt_two, Nat.succ_le_iff]

/-- Inside a hold the counter does not wrap (R211). -/
theorem count_no_wrap (d k : Nat) (h : k < d) : (k + 1) % 2 ^ cntWidth d = k + 1 :=
  Nat.mod_eq_of_lt (Nat.lt_of_le_of_lt h ((cntWidth_le_iff d _).1 (Nat.le_refl _)))

/-- The last cycle of a step goes to the next step or ends the frame; the other cycles count (R99). -/
theorem txCount_cases {n : Nat} (delay : Nat) (s : State n) :
    (s.txCnt ≠ delay ∧ txCount delay s = { s with txCnt := (s.txCnt + 1) % 2 ^ cntWidth delay }) ∨
    (s.txCnt = delay ∧ ∃ h : s.txStep.val + 1 < 50,
      txCount delay s = { s with txCnt := 0, txStep := ⟨s.txStep.val + 1, h⟩ }) ∨
    (s.txCnt = delay ∧ s.txStep.val = 49 ∧ txCount delay s = frameDone { s with txCnt := 0 }) := by
  unfold txCount
  by_cases h : s.txCnt = delay
  · by_cases hk : s.txStep.val + 1 < 50
    · exact .inr (.inl ⟨h, hk, by simp [h, hk]⟩)
    · have : s.txStep.val = 49 := by have := s.txStep.isLt; omega
      exact .inr (.inr ⟨h, this, by simp [h, hk]⟩)
  · exact .inl ⟨h, by simp [h]⟩

/-- The end of a frame: the next register of `init`, the end of `init`, or the end of a writing command (R122). -/
theorem frameDone_cases {n : Nat} (s : State n) :
    (s.isInit = true ∧ ∃ h : s.initIdx.val + 1 < n,
      frameDone s = load ⟨s.initIdx.val + 1, h⟩ (s.readShadow ⟨s.initIdx.val + 1, h⟩)
        { s with initIdx := ⟨s.initIdx.val + 1, h⟩ }) ∨
    (s.isInit = true ∧ s.initIdx.val + 1 = n ∧
      frameDone s = (respond .ok 0 { s with seq := .ready }).setInitialized) ∨
    (s.isInit = false ∧ frameDone s = respond .ok 0 { s with seq := .ready }) := by
  by_cases hi : s.isInit = true
  · by_cases h : s.initIdx.val + 1 < n
    · exact .inl ⟨hi, h, by rw [frameDone, dif_pos ⟨hi, h⟩]⟩
    · have hlast : s.initIdx.val + 1 = n := by have := s.initIdx.isLt; omega
      exact .inr (.inl ⟨hi, hlast, by rw [frameDone, dif_neg (fun x => h x.2)]; simp only [hi, if_true]⟩)
  · refine .inr (.inr ⟨by simpa using hi, ?_⟩)
    rw [frameDone, dif_neg (fun x => hi x.1)]
    simp only [hi, if_false, Bool.false_eq_true]

/-- What is taken from the input list, and what a step then is. -/
theorem step_cases (s : State) :
    (∃ w rest, s.inputs = .command w :: rest ∧ s.seq = .ready ∧
      ((∃ i, decode w = .ok i ∧ step s = exec i { s with inputs := rest }) ∨
       (∃ e, decode w = .error e ∧ step s = .next (raiseErr .errIllegal { s with inputs := rest })))) ∨
    (∃ w rest, s.inputs = .command w :: rest ∧ s.seq = .busy ∧ step s = .next (edge cfg (presenting w) s)) ∨
    (∃ p rest, s.inputs = .edge p :: rest ∧ step s = .next (edge cfg p { s with inputs := rest })) ∨
    (s.inputs = [] ∧ step s = .next (edge cfg idlePorts s)) := by
  cases hin : s.inputs with
  | nil => exact .inr (.inr (.inr ⟨rfl, by simp [step, fetch, hin]⟩))
  | cons x rest =>
    cases x with
    | edge p => exact .inr (.inr (.inl ⟨p, rest, rfl, by simp [step, fetch, hin]⟩))
    | command w =>
      cases hs : s.seq with
      | busy => exact .inr (.inl ⟨w, rest, rfl, rfl, by simp [step, fetch, hin, hs]⟩)
      | ready =>
        refine .inl ⟨w, rest, rfl, rfl, ?_⟩
        cases hd : decode w with
        | ok i => exact .inl ⟨i, rfl, by simp [step, fetch, hin, hs, hd]⟩
        | error e => exact .inr ⟨e, rfl, by simp [step, fetch, hin, hs, hd]⟩

end Sys2Proof.Machine
end

