-- ==== Sys2Proof/Laws/Decode.lean ====
section
/-!
SUPPORT. The fields of a command word put together from `op` and `arg`.
-/

namespace Sys2Proof

/-- The `op` field of a word put together from its fields. -/
@[simp] theorem opField_append (op : Opcode) (a : Word) : opField (op ++ a) = op := by
  unfold opField
  apply BitVec.eq_of_getLsbD_eq
  intro i hi
  simp only [BitVec.getLsbD_extractLsb', BitVec.getLsbD_append, hi, decide_true, Bool.true_and]
  have h : ¬ 16 + i < 16 := by omega
  simp [h]

/-- The `arg` field of a word put together from its fields. -/
@[simp] theorem argField_append (op : Opcode) (a : Word) : argField (op ++ a) = a := by
  unfold argField
  apply BitVec.eq_of_getLsbD_eq
  intro i hi
  simp only [BitVec.getLsbD_extractLsb', BitVec.getLsbD_append, hi, decide_true, Bool.true_and]
  simp [hi]

/-- A word is its two fields (R70). -/
theorem append_fields (w : CmdWord) : opField w ++ argField w = w := by
  unfold opField argField
  apply BitVec.eq_of_getLsbD_eq
  intro i hi
  simp only [BitVec.getLsbD_extractLsb', BitVec.getLsbD_append]
  by_cases h : i < 16
  · simp [h]
  · have h8 : i - 16 < 8 := by omega
    have h16 : 16 + (i - 16) = i := by omega
    simp [h, h8, h16]

/-- The table's `mask` keeps the `op` field and nothing else (R72). -/
theorem masked_append (op : Opcode) (a : Word) (w : CmdWord) (hw : w = op ++ a) :
    w &&& 0xFF0000#24 = op.setWidth 24 <<< 16 := by
  have hm : 0xFF0000#24 = (BitVec.allOnes 8 : Opcode) ++ (0 : Word) := by decide
  rw [hm, hw, BitVec.and_append]
  apply BitVec.eq_of_getLsbD_eq
  intro i hi
  simp only [BitVec.getLsbD_append, BitVec.getLsbD_and, BitVec.getLsbD_shiftLeft, BitVec.getLsbD_setWidth,
    BitVec.getLsbD_allOnes]
  by_cases h : i < 16
  · simp [h]
  · have h8 : i - 16 < 8 := by omega
    have h24 : i - 16 < 24 := by omega
    simp [h, h8, h24, hi]

end Sys2Proof
end

