-- ==== Sys2Proof/Laws/Operands.lean ====
section
/-!
SUPPORT. The merge of a field into a word, bit by bit (spec 41_model_core.md R113), and the well-formedness of the instance.
-/

namespace Sys2Proof.Machine

/-- Bit `i` of the mask of a well-formed field (R3). -/
theorem mask_bit {n : Nat} (fd : FieldDescriptor n) (h : fd.wf = true) (i : Nat) (hi : i < 16) :
    fd.mask.getLsbD i = decide (fd.shift ≤ i ∧ i < fd.shift + fd.width) := by
  simp only [FieldDescriptor.wf, Bool.and_eq_true, decide_eq_true_eq, beq_iff_eq] at h
  rw [h.2, BitVec.getLsbD_ofNat, Nat.testBit_shiftLeft, Nat.testBit_two_pow_sub_one]
  by_cases h1 : fd.shift ≤ i
  · have : (i - fd.shift < fd.width) ↔ (i < fd.shift + fd.width) := by omega
    simp [hi, h1, this]
  · simp [h1]

/-- A merged word takes the value's low bits inside the field and the old word's bits elsewhere (R113). -/
theorem mergeField_bit {n : Nat} (fd : FieldDescriptor n) (h : fd.wf = true) (old v : Word) (i : Nat) (hi : i < 16) :
    (mergeField fd old v).getLsbD i =
      if fd.shift ≤ i ∧ i < fd.shift + fd.width then v.getLsbD (i - fd.shift) else old.getLsbD i := by
  have hm := mask_bit fd h i hi
  unfold mergeField fieldBits
  simp only [BitVec.getLsbD_or, BitVec.getLsbD_and, BitVec.getLsbD_not, BitVec.getLsbD_shiftLeft, hm, hi,
    decide_true, Bool.true_and]
  by_cases h1 : fd.shift ≤ i ∧ i < fd.shift + fd.width
  · have h2 : ¬ i < fd.shift := by omega
    simp [h1, h2]
  · simp [h1]

/-- Every row of `FIELDS` is a well-formed field (R27). -/
theorem fieldTable_wf (f : FieldName) : (fieldTable f).wf = true := by cases f <;> decide

/-- Every field name is listed. -/
theorem mem_all (f : FieldName) : f ∈ FieldName.all := by cases f <;> decide

/-- The instance is well formed, whatever its delay (R3, R27). -/
theorem instanceCfg_wf (d m : Nat) : (instanceCfg d m).wf = true := by
  show (instanceCfg 0 0).wf = true
  decide +kernel

/-- The machine's configuration is well formed. -/
theorem cfg_wf : cfg.wf = true := instanceCfg_wf _ _

/-- What well-formedness says, conjunct by conjunct (R3, U12). -/
theorem Cfg_wf_iff (c : Cfg) : c.wf = true ↔
    c.widthsFixed = true ∧ c.nRegs ≤ 128 ∧ c.defaultsFit = true ∧ (∀ f, (c.fields f).wf = true) ∧
    ∀ f g, f ≠ g → (c.fields f).apart (c.fields g) = true := by
  have hw : addressable c.nRegs = true ↔ c.nRegs ≤ 128 := decide_eq_true_iff
  simp only [Cfg.wf, Bool.and_eq_true, List.all_eq_true, Bool.or_eq_true, beq_iff_eq, hw]
  constructor
  · rintro ⟨⟨⟨⟨h1, h2⟩, h3⟩, h4⟩, h5⟩
    exact ⟨h1, h2, h3, fun f => h4 f (mem_all f), fun f g hne => (h5 f (mem_all f) g (mem_all g)).resolve_left hne⟩
  · rintro ⟨h1, h2, h3, h4, h5⟩
    refine ⟨⟨⟨⟨h1, h2⟩, h3⟩, fun f _ => h4 f⟩, fun f _ g _ => ?_⟩
    by_cases h : f = g
    · exact .inl h
    · exact .inr (h5 f g h)

/-- The instance's fields, whatever its delay. -/
@[simp] theorem cfg_fields : cfg.fields = fieldTable := rfl

@[simp] theorem cfg_defaults : cfg.defaults = defaultTable := rfl

@[simp] theorem cfg_powerReg : cfg.powerReg = 6 := rfl

@[simp] theorem cfg_powerOnWord : cfg.powerOnWord = 0x01FF := rfl

@[simp] theorem cfg_powerOffWord : cfg.powerOffWord = 0 := rfl

@[simp] theorem cfg_delay : cfg.delay = Config.delay := rfl

end Sys2Proof.Machine
end

