-- ==== Sys2Proof/Laws/PerInstr.lean ====
section
/-!
SUPPORT. Statements about every command, one lemma per constructor.
-/

namespace Sys2Proof.Laws.EncodesTableRow

/-- The word of a command has the table's `match` under the table's `mask` (R72) and carries `op` and `arg` in their fields
(R70). -/
def Statement (i : Instr) : Prop :=
  encode i &&& 0xFF0000#24 = i.opcode.setWidth 24 <<< 16 ∧ opField (encode i) = i.opcode ∧ argField (encode i) = i.arg

/-- The fields of any command's word. -/
theorem holds_of_fields (i : Instr) : Statement i :=
  ⟨masked_append i.opcode i.arg _ rfl, opField_append i.opcode i.arg, argField_append i.opcode i.arg⟩

theorem init (arg : Word) : Statement (.init arg) := holds_of_fields _
theorem read (arg : Word) : Statement (.read arg) := holds_of_fields _
theorem setLineInputLeftVolume (arg : Word) : Statement (.setLineInputLeftVolume arg) := holds_of_fields _
theorem setLineInputRightVolume (arg : Word) : Statement (.setLineInputRightVolume arg) := holds_of_fields _
theorem setLineInputLeftSimultaneousUpdate (arg : Word) : Statement (.setLineInputLeftSimultaneousUpdate arg) := holds_of_fields _
theorem setLineInputRightSimultaneousUpdate (arg : Word) : Statement (.setLineInputRightSimultaneousUpdate arg) := holds_of_fields _
theorem setLineInputLeftMute (arg : Word) : Statement (.setLineInputLeftMute arg) := holds_of_fields _
theorem setLineInputRightMute (arg : Word) : Statement (.setLineInputRightMute arg) := holds_of_fields _
theorem setHeadphoneLeftVolume (arg : Word) : Statement (.setHeadphoneLeftVolume arg) := holds_of_fields _
theorem setHeadphoneRightVolume (arg : Word) : Statement (.setHeadphoneRightVolume arg) := holds_of_fields _
theorem setHeadphoneLeftZeroCross (arg : Word) : Statement (.setHeadphoneLeftZeroCross arg) := holds_of_fields _
theorem setHeadphoneRightZeroCross (arg : Word) : Statement (.setHeadphoneRightZeroCross arg) := holds_of_fields _
theorem setHeadphoneLeftSimultaneousUpdate (arg : Word) : Statement (.setHeadphoneLeftSimultaneousUpdate arg) := holds_of_fields _
theorem setHeadphoneRightSimultaneousUpdate (arg : Word) : Statement (.setHeadphoneRightSimultaneousUpdate arg) := holds_of_fields _
theorem setSidetoneEnable (arg : Word) : Statement (.setSidetoneEnable arg) := holds_of_fields _
theorem setSidetoneLevel (arg : Word) : Statement (.setSidetoneLevel arg) := holds_of_fields _
theorem setDacInputSelect (arg : Word) : Statement (.setDacInputSelect arg) := holds_of_fields _
theorem setAnalogBypass (arg : Word) : Statement (.setAnalogBypass arg) := holds_of_fields _
theorem setInputSelect (arg : Word) : Statement (.setInputSelect arg) := holds_of_fields _
theorem setMicMute (arg : Word) : Statement (.setMicMute arg) := holds_of_fields _
theorem setMicBoost (arg : Word) : Statement (.setMicBoost arg) := holds_of_fields _
theorem setDacMute (arg : Word) : Statement (.setDacMute arg) := holds_of_fields _
theorem setDeemphasisMode (arg : Word) : Statement (.setDeemphasisMode arg) := holds_of_fields _
theorem setAdcHighpassFilter (arg : Word) : Statement (.setAdcHighpassFilter arg) := holds_of_fields _
theorem powerOn (arg : Word) : Statement (.powerOn arg) := holds_of_fields _
theorem powerOff (arg : Word) : Statement (.powerOff arg) := holds_of_fields _
theorem setInterfaceMode (arg : Word) : Statement (.setInterfaceMode arg) := holds_of_fields _
theorem setLeftRightSwap (arg : Word) : Statement (.setLeftRightSwap arg) := holds_of_fields _
theorem setBitClockPhase (arg : Word) : Statement (.setBitClockPhase arg) := holds_of_fields _
theorem setSampleWidth (arg : Word) : Statement (.setSampleWidth arg) := holds_of_fields _
theorem setDataFormat (arg : Word) : Statement (.setDataFormat arg) := holds_of_fields _
theorem setClockIn (arg : Word) : Statement (.setClockIn arg) := holds_of_fields _
theorem setClockOut (arg : Word) : Statement (.setClockOut arg) := holds_of_fields _
theorem setSampleRateCode (arg : Word) : Statement (.setSampleRateCode arg) := holds_of_fields _
theorem setOversamplingRatio (arg : Word) : Statement (.setOversamplingRatio arg) := holds_of_fields _
theorem setClockMode (arg : Word) : Statement (.setClockMode arg) := holds_of_fields _
theorem busEnable (arg : Word) : Statement (.busEnable arg) := holds_of_fields _
theorem busDisable (arg : Word) : Statement (.busDisable arg) := holds_of_fields _

end Sys2Proof.Laws.EncodesTableRow
end

