-- ==== Sys2Proof/Laws/Run.lean ====
section
/-!
SUPPORT. Runs of clock edges: a hold, one step of the transmitter, a whole frame (spec 40_transmitter.md R98).
-/

namespace Sys2Proof.Machine

theorem idleEdges_succ (c : Cfg) (n : Nat) (s : State c.nRegs) :
    idleEdges c (n + 1) s = idleEdges c n (edge c idlePorts s) := rfl

theorem idleEdges_add (c : Cfg) (m n : Nat) (s : State c.nRegs) :
    idleEdges c (m + n) s = idleEdges c n (idleEdges c m s) := by
  induction m generalizing s with
  | zero => simp [idleEdges]
  | succ m ih => rw [Nat.succ_add, idleEdges_succ, idleEdges_succ, ih]

/-- An idle edge of a busy core is a transmitter edge. -/
theorem edge_idle_busy (c : Cfg) (s : State c.nRegs) (hs : s.seq = .busy) :
    edge c idlePorts s = txEdge c.delay { s with rspValid := false } :=
  edge_busy c idlePorts s rfl hs

/-- Inside a hold only the counter moves (R93, R99). -/
theorem holdRun (c : Cfg) (j : Nat) (s : State c.nRegs) (hs : s.seq = .busy) (hv : s.rspValid = false)
    (h0 : s.txCnt ≠ 0) (hj : s.txCnt + j ≤ c.delay) :
    idleEdges c j s = { s with txCnt := s.txCnt + j } := by
  induction j generalizing s with
  | zero => rfl
  | succ j ih =>
    have hne : s.txCnt ≠ c.delay := by omega
    have hone : edge c idlePorts s = { s with txCnt := s.txCnt + 1 } := by
      rw [edge_idle_busy c s hs]
      have hself : { s with rspValid := false } = s := by rw [← hv]
      rw [hself, txEdge, txEvent, if_neg h0, txCount, if_neg hne, count_no_wrap c.delay s.txCnt (by omega)]
    have hassoc : s.txCnt + 1 + j = s.txCnt + (j + 1) := by omega
    rw [idleEdges_succ, hone, ih _ (by exact hs) (by exact hv) (Nat.succ_ne_zero _) (by show s.txCnt + 1 + j ≤ _; omega)]
    simp [hassoc]

/-- One step of the transmitter but for its last edge's counting: the event, then the hold, `DELAY + 1` edges in all (R98). -/
theorem stepRun (c : Cfg) (s : State c.nRegs) (hs : s.seq = .busy) (h0 : s.txCnt = 0) :
    idleEdges c (c.delay + 1) s =
      txCount c.delay { emit (lineEventAt s.txFrame s.txStep.val) s with rspValid := false, txCnt := c.delay } := by
  have hev : ∀ t : State c.nRegs, t.txCnt = 0 → txEvent t = emit (lineEventAt t.txFrame t.txStep.val) t := by
    intro t ht
    rw [txEvent, if_pos ht]
  cases hd : c.delay with
  | zero =>
    rw [idleEdges_succ, edge_idle_busy c s hs, txEdge, hev _ (by exact h0), hd]
    show txCount 0 _ = txCount 0 _
    congr 1
    simp [emit, h0]
  | succ d =>
    -- the first edge performs the event and counts one cycle
    have h1 : edge c idlePorts s =
        { emit (lineEventAt s.txFrame s.txStep.val) s with rspValid := false, txCnt := 1 } := by
      rw [edge_idle_busy c s hs, txEdge, hev _ (by exact h0), txCount]
      have hne : ¬ (emit (lineEventAt s.txFrame s.txStep.val) { s with rspValid := false }).txCnt = c.delay := by
        rw [emit_txCnt, hd]
        show ¬ s.txCnt = d + 1
        omega
      rw [if_neg hne, emit_txCnt, count_no_wrap c.delay s.txCnt (by omega)]
      simp [emit, h0]
    -- `d` edges of hold, then the last edge of the step
    rw [idleEdges_succ, h1, idleEdges_add c d 1, holdRun c d _ (by exact hs) rfl (by simp) (by rw [hd]; simp; omega)]
    rw [idleEdges_succ, edge_idle_busy c _ (by exact hs), txEdge, txEvent, if_neg (by simp), hd]
    show txCount (d + 1) _ = txCount (d + 1) _
    congr 1
    simp [Nat.add_comm]

/-- A step before the last leads to the next step (R98). -/
theorem stepRun_next (c : Cfg) (s : State c.nRegs) (hs : s.seq = .busy) (h0 : s.txCnt = 0) (hk : s.txStep.val + 1 < 50) :
    idleEdges c (c.delay + 1) s =
      { emit (lineEventAt s.txFrame s.txStep.val) s with rspValid := false, txStep := ⟨s.txStep.val + 1, hk⟩ } := by
  rw [stepRun c s hs h0, txCount, if_pos rfl, dif_pos (by exact hk)]
  simp [emit, h0]

/-- The last step ends the frame (R98). -/
theorem stepRun_last (c : Cfg) (s : State c.nRegs) (hs : s.seq = .busy) (h0 : s.txCnt = 0) (hk : s.txStep.val = 49) :
    idleEdges c (c.delay + 1) s =
      frameDone { emit (lineEventAt s.txFrame s.txStep.val) s with rspValid := false, txCnt := 0 } := by
  rw [stepRun c s hs h0, txCount, if_pos rfl, dif_neg (by show ¬ s.txStep.val + 1 < 50; omega)]

/-- The events of a frame, one by one, are its trace (R92, R99). -/
theorem frameTrace_eq_map (f : Frame) : frameTrace f = (List.range 50).map (lineEventAt f) := rfl

/-- After `k` steps of a frame, `k < 50`: the first `k` events, nothing else (R98). -/
theorem stepsRun (c : Cfg) (s : State c.nRegs) (hs : s.seq = .busy) (h0 : s.txCnt = 0) (hz : s.txStep = 0)
    (k : Nat) (hk : k < 50) :
    idleEdges c (k * (c.delay + 1)) s =
      { emitAll ((List.range k).map (lineEventAt s.txFrame)) s with
        rspValid := if k = 0 then s.rspValid else false
        txStep   := ⟨k, hk⟩ } := by
  induction k with
  | zero =>
    rw [Nat.zero_mul]
    show s = _
    have h : (⟨0, hk⟩ : Fin 50) = s.txStep := by rw [hz]; rfl
    simp [emitAll, h]
  | succ k ih =>
    have hk' : k < 50 := by omega
    rw [Nat.succ_mul, idleEdges_add, ih hk']
    have hseq : (emitAll ((List.range k).map (lineEventAt s.txFrame)) s).seq = .busy := by rw [emitAll_eq]; exact hs
    have hcnt : (emitAll ((List.range k).map (lineEventAt s.txFrame)) s).txCnt = 0 := by rw [emitAll_eq]; exact h0
    rw [stepRun_next c _ (by exact hseq) (by exact hcnt) (by exact hk)]
    simp only [emitAll_eq, List.range_succ, List.map_append, List.map_cons, List.map_nil, List.foldl_append,
      List.foldl_cons, List.foldl_nil]
    simp [emit, List.append_assoc]

/-- A whole frame, `50 * (DELAY + 1)` edges: all its events, then what ends a frame (R98, R122). -/
theorem frameRun (c : Cfg) (s : State c.nRegs) (hs : s.seq = .busy) (h0 : s.txCnt = 0) (hz : s.txStep = 0) :
    idleEdges c (50 * (c.delay + 1)) s =
      frameDone
        { s with
          rspValid := false
          txStep   := 49
          lines    := ⟨true, false, s.txFrame.getLsbD 0⟩
          trace    := s.trace ++ frameTrace s.txFrame } := by
  have hsplit : 50 * (c.delay + 1) = 49 * (c.delay + 1) + (c.delay + 1) := by omega
  rw [hsplit, idleEdges_add, stepsRun c s hs h0 hz 49 (by omega)]
  have hl := frameTrace_levels s.txFrame s.lines
  have ht : frameTrace s.txFrame = (List.range 49).map (lineEventAt s.txFrame) ++ [lineEventAt s.txFrame 49] := rfl
  rw [ht] at hl ⊢
  generalize (List.range 49).map (lineEventAt s.txFrame) = es at hl ⊢
  have hseq : (emitAll es s).seq = .busy := by rw [emitAll_eq]; exact hs
  have hcnt : (emitAll es s).txCnt = 0 := by rw [emitAll_eq]; exact h0
  rw [stepRun_last c _ (by exact hseq) (by exact hcnt) rfl]
  congr 1
  rw [List.foldl_append, List.foldl_cons, List.foldl_nil] at hl
  simp [emitAll_eq, emit, hl, h0]

end Sys2Proof.Machine
end

