-- ==== Sys2Proof/Tests/Slice0.lean ====
section
/-!
SUPPORT. Tests: the checks of WellFormed each refuse an ill-formed term, words written out from 30_encoding.md decode, one
step per command against the vectors of 95_test_vectors.md, and for each statement with hypotheses a witness that meets them.
-/

namespace Sys2Proof.Tests

open Sys2Proof.Machine

-- ==== WellFormed: an ill-formed term for each check of R3 ====

theorem test_wf_row : (FieldDescriptor.mk (4 : RegAddr) 0x00C0 6 2).wf = true := by decide

theorem test_wf_refuses_width_zero : (FieldDescriptor.mk (0 : RegAddr) 0x0000 0 0).wf = false := by decide

theorem test_wf_refuses_field_past_the_word : (FieldDescriptor.mk (0 : RegAddr) 0x8000 15 2).wf = false := by decide

theorem test_wf_refuses_wrong_mask : (FieldDescriptor.mk (0 : RegAddr) 0x0007 0 2).wf = false := by decide

theorem test_wf_refuses_overlap : (FieldDescriptor.mk (0 : RegAddr) 0x0003 0 2).apart (FieldDescriptor.mk (0 : RegAddr) 0x0006 1 2) = false := by
  decide

theorem test_wf_allows_overlap_across_registers :
    (FieldDescriptor.mk (0 : RegAddr) 0x0003 0 2).apart (FieldDescriptor.mk (1 : RegAddr) 0x0006 1 2) = true := by decide

theorem test_wf_refuses_too_many_registers : addressable 129 = false ∧ addressable 128 = true := by decide

/-- A configuration with one bad row is refused whole. -/
theorem test_wf_refuses_cfg :
    Cfg.wf { instanceCfg 0 0 with
      fields := fun f => if f = .micMute then ⟨4, 0x0001, 0, 1⟩ else fieldTable f } = false := by decide

/-- 93_implementation_defined.md U12: a default word with a bit above bit 8. -/
theorem test_wf_refuses_high_default :
    Cfg.defaultsFit { instanceCfg 0 0 with defaults := defaultTable.set 3 0x0200 } = false ∧
    Cfg.defaultsFit { instanceCfg 0 0 with defaults := defaultTable.set 3 0x01FF } = true := by decide

theorem test_wf_refuses_other_width : Cfg.widthsFixed { instanceCfg 0 0 with wordW := 32 } = false := by decide

/-- A well-formed `Cfg` with two registers more than the instance (R2, D5). -/
def twelve : Cfg :=
  { instanceCfg 1 0 with
    nRegs    := 12
    defaults := #v[0x0097, 0x0097, 0x00F9, 0x00F9, 0x000A, 0x0008, 0x0007, 0x0001, 0x0020, 0x0000, 0x0155, 0x002A]
    fields   := fun f => ⟨(fieldTable f).reg.castAdd 2, (fieldTable f).mask, (fieldTable f).shift, (fieldTable f).width⟩
    powerReg := 6 }

/-- R2, R3: another `Cfg` than the instance is well formed. -/
theorem test_wf_accepts : twelve.wf = true := by decide +kernel

/-- R115, R63, R114 for that `Cfg`: `init` sends twelve frames, the last for register 11 (`11 << 9 | 0x02A`), `read(10)` is
answered with the entry and `read(12)` with `ErrAddr`. -/
theorem test_other_cfg :
    let s := execute twelve 0x010000 (State.atReset 0 twelve.nRegs_pos)
    ((framesSent s.trace).length, (framesSent s.trace).getLast?) = (12, some 0x162A) ∧
    (execute twelve 0x02000A s).rspData = 0x0155 ∧ (execute twelve 0x02000C s).rspStatus = .errAddr := by decide +kernel

-- ==== Decoding: words written out from R70 and R73 ====

theorem test_decode_init : decode 0b000000010000000000000000 = .ok (.init 0x0000) := by decide

theorem test_decode_init_stray_arg : decode 0x01BEEF = .ok (.init 0xBEEF) := by decide

theorem test_decode_read : decode 0b000000100000000000001001 = .ok (.read 9) := by decide

theorem test_decode_line : decode 0b000100000000000000010111 = .ok (.setLineInputLeftVolume 0x17) := by decide

theorem test_decode_headphone : decode 0x1BFFFF = .ok (.setHeadphoneRightSimultaneousUpdate 0xFFFF) := by decide

theorem test_decode_analog : decode 0b001000010000000000000011 = .ok (.setSidetoneLevel 3) := by decide

theorem test_decode_digital : decode 0b001010010000000000000101 = .ok (.setDeemphasisMode 5) := by decide

theorem test_decode_power : decode 0b001100001010101111001101 = .ok (.powerOn 0xABCD) := by decide

theorem test_decode_interface : decode 0b001110110000000000000011 = .ok (.setSampleWidth 3) := by decide

theorem test_decode_rate : decode 0b010000100000000000011000 = .ok (.setSampleRateCode 0x18) := by decide

theorem test_decode_bus : decode 0b010010011111111111111111 = .ok (.busDisable 0xFFFF) := by decide

/-- Every row of R73, in order, from its `op` value alone. -/
theorem test_decode_all_rows :
    [0x01, 0x02, 0x10, 0x11, 0x12, 0x13, 0x14, 0x15, 0x16, 0x17, 0x18, 0x19, 0x1A, 0x1B, 0x20, 0x21, 0x22, 0x23, 0x24,
      0x25, 0x26, 0x28, 0x29, 0x2A, 0x30, 0x31, 0x38, 0x39, 0x3A, 0x3B, 0x3C, 0x40, 0x41, 0x42, 0x43, 0x44, 0x48, 0x49].map
        (fun op => decodeTableWord 24 (op * 65536 + 5)) =
    [some (.init 5), some (.read 5),
      some (.setLineInputLeftVolume 5), some (.setLineInputRightVolume 5),
      some (.setLineInputLeftSimultaneousUpdate 5), some (.setLineInputRightSimultaneousUpdate 5),
      some (.setLineInputLeftMute 5), some (.setLineInputRightMute 5),
      some (.setHeadphoneLeftVolume 5), some (.setHeadphoneRightVolume 5),
      some (.setHeadphoneLeftZeroCross 5), some (.setHeadphoneRightZeroCross 5),
      some (.setHeadphoneLeftSimultaneousUpdate 5), some (.setHeadphoneRightSimultaneousUpdate 5),
      some (.setSidetoneEnable 5), some (.setSidetoneLevel 5), some (.setDacInputSelect 5), some (.setAnalogBypass 5),
      some (.setInputSelect 5), some (.setMicMute 5), some (.setMicBoost 5),
      some (.setDacMute 5), some (.setDeemphasisMode 5), some (.setAdcHighpassFilter 5),
      some (.powerOn 5), some (.powerOff 5),
      some (.setInterfaceMode 5), some (.setLeftRightSwap 5), some (.setBitClockPhase 5), some (.setSampleWidth 5),
      some (.setDataFormat 5),
      some (.setClockIn 5), some (.setClockOut 5), some (.setSampleRateCode 5), some (.setOversamplingRatio 5),
      some (.setClockMode 5), some (.busEnable 5), some (.busDisable 5)] := by decide

/-- V1: words in the gaps of the map. -/
theorem test_decode_reserved :
    [0x000000, 0x030000, 0x0F0000, 0x1C0000, 0x1F0000, 0x270000, 0x2B0000, 0x2F0000, 0x320000, 0x370000, 0x3D0000,
      0x3F0000, 0x450000, 0x470000, 0x4A0000, 0xFF0000].map (decodeTableWord 24) = List.replicate 16 none := by decide

/-- R76: the source's own spelling, and a register name as an operand. -/
theorem test_assemble :
    assemble ⟨"set_line_input_left_volume", some (.number 0x17)⟩ = some 0x100017 ∧
    assemble ⟨"read", some (.register "LEFT_LINE_VOLUME")⟩ = some 0x020000 ∧
    assemble ⟨"power_on", none⟩ = some 0x300000 ∧ assemble ⟨"read", none⟩ = none := by decide

-- ==== One step per command ====

/-- The state after `init()` as the vectors use it: the default table and the flag. -/
def inited : State := { State.reset with shadow := defaultTable, initialized := true }

/-- The state after one step that is given the command word `w`, if the step goes on. -/
def after (w : CmdWord) (s : State) : Option State :=
  match step { s with inputs := [.command w] } with
  | .next t => some t
  | _ => none

/-- What a command after `init()` stores in an entry and sends, if it answers `(OK, 0x0000)`. -/
def sent (w : CmdWord) (a : RegAddr) : Option (Word × List Frame) :=
  match after w inited with
  | some t => if t.responses = [⟨.ok, 0⟩] then some (t.readShadow a, framesSent t.trace) else none
  | none => none

/-- The response of a command and the frames it sends. -/
def answer (w : CmdWord) (s : State) : Option (Status × Word × List Frame) :=
  (after w s).map (fun t => (t.rspStatus, t.rspData, framesSent t.trace))

/-- 95_test_vectors.md V3, the rows of R130. -/
theorem test_setLineInputLeftVolume : sent 0x10FFFF 0 = some (0x009F, [0x009F]) ∧ sent 0x100000 0 = some (0x0080, [0x0080]) := by decide

/-- 95_test_vectors.md V3, the rows of R131. -/
theorem test_setLineInputRightVolume : sent 0x11FFFF 1 = some (0x009F, [0x029F]) ∧ sent 0x110000 1 = some (0x0080, [0x0280]) := by decide

/-- 95_test_vectors.md V3, the rows of R132. -/
theorem test_setLineInputLeftSimultaneousUpdate : sent 0x12FFFF 0 = some (0x0197, [0x0197]) ∧ sent 0x120000 0 = some (0x0097, [0x0097]) := by decide

/-- 95_test_vectors.md V3, the rows of R133. -/
theorem test_setLineInputRightSimultaneousUpdate : sent 0x13FFFF 1 = some (0x0197, [0x0397]) ∧ sent 0x130000 1 = some (0x0097, [0x0297]) := by decide

/-- 95_test_vectors.md V3, the rows of R134. -/
theorem test_setLineInputLeftMute : sent 0x14FFFF 0 = some (0x0097, [0x0097]) ∧ sent 0x140000 0 = some (0x0017, [0x0017]) := by decide

/-- 95_test_vectors.md V3, the rows of R135. -/
theorem test_setLineInputRightMute : sent 0x15FFFF 1 = some (0x0097, [0x0297]) ∧ sent 0x150000 1 = some (0x0017, [0x0217]) := by decide

/-- 95_test_vectors.md V3, the rows of R136. -/
theorem test_setHeadphoneLeftVolume : sent 0x16FFFF 2 = some (0x00FF, [0x04FF]) ∧ sent 0x160000 2 = some (0x0080, [0x0480]) := by decide

/-- 95_test_vectors.md V3, the rows of R137. -/
theorem test_setHeadphoneRightVolume : sent 0x17FFFF 3 = some (0x00FF, [0x06FF]) ∧ sent 0x170000 3 = some (0x0080, [0x0680]) := by decide

/-- 95_test_vectors.md V3, the rows of R138. -/
theorem test_setHeadphoneLeftZeroCross : sent 0x18FFFF 2 = some (0x00F9, [0x04F9]) ∧ sent 0x180000 2 = some (0x0079, [0x0479]) := by decide

/-- 95_test_vectors.md V3, the rows of R139. -/
theorem test_setHeadphoneRightZeroCross : sent 0x19FFFF 3 = some (0x00F9, [0x06F9]) ∧ sent 0x190000 3 = some (0x0079, [0x0679]) := by decide

/-- 95_test_vectors.md V3, the rows of R140. -/
theorem test_setHeadphoneLeftSimultaneousUpdate : sent 0x1AFFFF 2 = some (0x01F9, [0x05F9]) ∧ sent 0x1A0000 2 = some (0x00F9, [0x04F9]) := by decide

/-- 95_test_vectors.md V3, the rows of R141. -/
theorem test_setHeadphoneRightSimultaneousUpdate : sent 0x1BFFFF 3 = some (0x01F9, [0x07F9]) ∧ sent 0x1B0000 3 = some (0x00F9, [0x06F9]) := by decide

/-- 95_test_vectors.md V3, the rows of R150. -/
theorem test_setSidetoneEnable : sent 0x20FFFF 4 = some (0x002A, [0x082A]) ∧ sent 0x200000 4 = some (0x000A, [0x080A]) := by decide

/-- 95_test_vectors.md V3, the rows of R151. -/
theorem test_setSidetoneLevel : sent 0x21FFFF 4 = some (0x00CA, [0x08CA]) ∧ sent 0x210000 4 = some (0x000A, [0x080A]) := by decide

/-- 95_test_vectors.md V3, the rows of R152. -/
theorem test_setDacInputSelect : sent 0x22FFFF 4 = some (0x001A, [0x081A]) ∧ sent 0x220000 4 = some (0x000A, [0x080A]) := by decide

/-- 95_test_vectors.md V3, the rows of R153. -/
theorem test_setAnalogBypass : sent 0x23FFFF 4 = some (0x000A, [0x080A]) ∧ sent 0x230000 4 = some (0x0002, [0x0802]) := by decide

/-- 95_test_vectors.md V3, the rows of R154. -/
theorem test_setInputSelect : sent 0x24FFFF 4 = some (0x000E, [0x080E]) ∧ sent 0x240000 4 = some (0x000A, [0x080A]) := by decide

/-- 95_test_vectors.md V3, the rows of R155. -/
theorem test_setMicMute : sent 0x25FFFF 4 = some (0x000A, [0x080A]) ∧ sent 0x250000 4 = some (0x0008, [0x0808]) := by decide

/-- 95_test_vectors.md V3, the rows of R156. -/
theorem test_setMicBoost : sent 0x26FFFF 4 = some (0x000B, [0x080B]) ∧ sent 0x260000 4 = some (0x000A, [0x080A]) := by decide

/-- 95_test_vectors.md V3, the rows of R157. -/
theorem test_setDacMute : sent 0x28FFFF 5 = some (0x0008, [0x0A08]) ∧ sent 0x280000 5 = some (0x0000, [0x0A00]) := by decide

/-- 95_test_vectors.md V3, the rows of R158. -/
theorem test_setDeemphasisMode : sent 0x29FFFF 5 = some (0x000E, [0x0A0E]) ∧ sent 0x290000 5 = some (0x0008, [0x0A08]) := by decide

/-- 95_test_vectors.md V3, the rows of R159. -/
theorem test_setAdcHighpassFilter : sent 0x2AFFFF 5 = some (0x0009, [0x0A09]) ∧ sent 0x2A0000 5 = some (0x0008, [0x0A08]) := by decide

/-- 95_test_vectors.md V3, the rows of R180. -/
theorem test_setInterfaceMode : sent 0x38FFFF 7 = some (0x0041, [0x0E41]) ∧ sent 0x380000 7 = some (0x0001, [0x0E01]) := by decide

/-- 95_test_vectors.md V3, the rows of R181. -/
theorem test_setLeftRightSwap : sent 0x39FFFF 7 = some (0x0021, [0x0E21]) ∧ sent 0x390000 7 = some (0x0001, [0x0E01]) := by decide

/-- 95_test_vectors.md V3, the rows of R182. -/
theorem test_setBitClockPhase : sent 0x3AFFFF 7 = some (0x0011, [0x0E11]) ∧ sent 0x3A0000 7 = some (0x0001, [0x0E01]) := by decide

/-- 95_test_vectors.md V3, the rows of R183. -/
theorem test_setSampleWidth : sent 0x3BFFFF 7 = some (0x000D, [0x0E0D]) ∧ sent 0x3B0000 7 = some (0x0001, [0x0E01]) := by decide

/-- 95_test_vectors.md V3, the rows of R184. -/
theorem test_setDataFormat : sent 0x3CFFFF 7 = some (0x0003, [0x0E03]) ∧ sent 0x3C0000 7 = some (0x0000, [0x0E00]) := by decide

/-- 95_test_vectors.md V3, the rows of R185. -/
theorem test_setClockIn : sent 0x40FFFF 8 = some (0x0060, [0x1060]) ∧ sent 0x400000 8 = some (0x0020, [0x1020]) := by decide

/-- 95_test_vectors.md V3, the rows of R186. -/
theorem test_setClockOut : sent 0x41FFFF 8 = some (0x00A0, [0x10A0]) ∧ sent 0x410000 8 = some (0x0020, [0x1020]) := by decide

/-- 95_test_vectors.md V3, the rows of R187. -/
theorem test_setSampleRateCode : sent 0x42FFFF 8 = some (0x003C, [0x103C]) ∧ sent 0x420000 8 = some (0x0000, [0x1000]) := by decide

/-- 95_test_vectors.md V3, the rows of R188. -/
theorem test_setOversamplingRatio : sent 0x43FFFF 8 = some (0x0022, [0x1022]) ∧ sent 0x430000 8 = some (0x0020, [0x1020]) := by decide

/-- 95_test_vectors.md V3, the rows of R189. -/
theorem test_setClockMode : sent 0x44FFFF 8 = some (0x0021, [0x1021]) ∧ sent 0x440000 8 = some (0x0020, [0x1020]) := by decide

/-- 95_test_vectors.md V4: the operand is ignored. -/
theorem test_powerOn : sent 0x300000 6 = some (0x01FF, [0x0DFF]) ∧ sent 0x30ABCD 6 = some (0x01FF, [0x0DFF]) := by
  decide

/-- V4. -/
theorem test_powerOff : sent 0x310000 6 = some (0x0000, [0x0C00]) := by decide

/-- V4. -/
theorem test_busEnable : sent 0x480000 9 = some (0x0001, [0x1201]) := by decide

/-- V4: the word does not change and the frame is still sent. -/
theorem test_busDisable : sent 0x49FFFF 9 = some (0x0000, [0x1200]) := by decide

/-- 95_test_vectors.md V5: the last legal address, the first illegal one, and one that must not alias register 0. -/
theorem test_read :
    answer 0x020008 inited = some (.ok, 0x0020, []) ∧ answer 0x020009 inited = some (.ok, 0x0000, []) ∧
    answer 0x02000A inited = some (.errAddr, 0, []) ∧ answer 0x020100 inited = some (.errAddr, 0, []) := by decide

/-- 95_test_vectors.md S1: `init()` from reset. -/
theorem test_init :
    answer 0x010000 State.reset =
      some (.ok, 0, [0x0097, 0x0297, 0x04F9, 0x06F9, 0x080A, 0x0A08, 0x0C07, 0x0E01, 0x1020, 0x1200]) := by decide +kernel

/-- V5: `init()` again puts every entry back. -/
theorem test_init_again :
    (after 0x010000 { inited with shadow := inited.shadow.set 6 0x01FF }).map (fun t => (t.shadow, t.initialized)) =
      some (defaultTable, true) := by decide +kernel

/-- 95_test_vectors.md V6: errors and their priority, from reset. -/
theorem test_errors_before_init :
    [0x000000, 0xFF0000, 0x020000, 0x02000A, 0x100005, 0x300000, 0x480000].map (fun w => answer w State.reset) =
      [some (.errIllegal, 0, []), some (.errIllegal, 0, []), some (.errUninit, 0, []), some (.errUninit, 0, []),
        some (.errUninit, 0, []), some (.errUninit, 0, []), some (.errUninit, 0, [])] := by decide

/-- V6: a reserved word inside the analog-path group, initialized. -/
theorem test_reserved_after_init : answer 0x270001 inited = some (.errIllegal, 0, []) := by decide

-- ==== The cycle level: 95_test_vectors.md T2, `DELAY = 0` ====

/-- 95_test_vectors.md T1: the bits of the frame `0x1201` in the order sent, and the levels after the frame. -/
theorem test_frame_bits :
    (frameTrace 0x1201).filterMap (fun e => match e with | .sdat b => some b | _ => none) =
      [false, false, false, true, false, false, true, false, false, false, false, false, false, false, false, true] ∧
    replay (frameTrace 0x1201) = ⟨true, false, true⟩ := by decide

/-- The levels of one line in the cycles after the edges `t0 + i`, for the `i` given. -/
def levels (line : Lines → Bool) (is : List Nat) : List Bool :=
  is.map (fun i => line (idleEdges (instanceCfg 0 0) i (edge (instanceCfg 0 0) (presenting 0x480000) inited)).lines)

/-- `CS` falls at `t0 + 1` and rises at `t0 + 50`. -/
theorem test_trace_cs : levels Lines.cs [0, 1, 49, 50] = [true, false, false, true] := by decide

/-- `SCLK` rises at `t0 + 3` and falls at `t0 + 4`, and last at `t0 + 48` and `t0 + 49`. -/
theorem test_trace_sclk : levels Lines.sclk [2, 3, 4, 47, 48, 49] = [false, true, false, false, true, false] := by
  decide

/-- `SDAT` takes bits 2, 3, 4 at `t0 + 8`, `t0 + 11`, `t0 + 14`, and the last bit at `t0 + 47`. -/
theorem test_trace_sdat :
    levels Lines.sdat [10, 11, 13, 14, 16, 17, 19, 20, 46, 47] =
      [false, true, true, false, false, false, false, true, false, true] := by decide

/-- T3, `DELAY = 2`: `CS` rises at `t0 + 148` and the response comes at `t0 + 150`. -/
theorem test_delay_two :
    [147, 148, 149, 150].map (fun i =>
      let t := idleEdges (instanceCfg 2 0) i (edge (instanceCfg 2 0) (presenting 0x160030) inited)
      (t.lines.cs, t.rspValid, t.seq == .ready)) =
      [(false, false, false), (true, false, false), (true, false, false), (true, true, true)] := by decide +kernel

-- ==== Witnesses: the hypotheses of each statement can be met ====

/-- A core that has just accepted `bus_enable`. -/
def running : State := edge (instanceCfg 0 0) (presenting 0x480000) inited

theorem witness_EncodeOfDecodeIsTheWord : decode 0x250003 = .ok (.setMicMute 3) := by decide

theorem witness_StepRunsTheDecodedCommand :
    ({ inited with inputs := [.command 0x250003] } : State).inputs = .command 0x250003 :: [] ∧ inited.seq = .ready ∧
    decode 0x250003 = .ok (.setMicMute 3) ∧ decode (encode (.setMicMute 3)) = .ok (.setMicMute 3) ∧
    ({ inited with inputs := [.command 0x270001] } : State).inputs = .command 0x270001 :: [] ∧
    decode 0x270001 = .error (.reserved 0x27) := by decide

theorem witness_StepIsOtherwiseOneClockEdge :
    ({ inited with inputs := [.edge idlePorts] } : State).inputs = .edge idlePorts :: [] ∧
    ({ running with inputs := [.command 0x010000] } : State).inputs = .command 0x010000 :: [] ∧ running.seq = .busy ∧
    inited.inputs = [] := by decide

theorem witness_ReservedWordAnsweredErrIllegal :
    (instanceCfg 0 0).wf = true ∧ inited.seq = .ready ∧ reservedOp (opField 0x270001).toNat = true ∧
    reservedOp (opField 0x4A0000).toNat = true :=
  ⟨instanceCfg_wf 0 0, by decide⟩

/-- For every family's statement and for `read`: an initialized state and an uninitialized one. -/
theorem witness_families : inited.initialized = true ∧ State.reset.initialized = false := ⟨rfl, rfl⟩

theorem witness_ReadAnswersTheEntry :
    inited.initialized = true ∧ (9#16).toNat < 10 ∧ 10 ≤ (10#16).toNat ∧ 10 ≤ (0xFFFF#16).toNat ∧
    State.reset.initialized = false := ⟨rfl, by decide, by decide, by decide, rfl⟩

theorem witness_NothingButInitRunsBeforeInit :
    (∀ arg, Instr.powerOn 0 ≠ .init arg) ∧ State.reset.initialized = false := ⟨fun _ h => (by cases h), rfl⟩

theorem witness_ErrorPriorityIsFixed :
    (instanceCfg 0 0).wf = true ∧ (⟨true, true, 0x010000⟩ : PortIn).rst = true ∧
    reservedOp (opField 0x000000).toNat = true ∧
    reservedOp (opField 0x02000A).toNat = false ∧ opField 0x02000A ≠ 0x01 ∧ State.reset.initialized = false ∧
    opField 0x02000A = 0x02 ∧ inited.initialized = true ∧ 10 ≤ (argField 0x02000A).toNat :=
  ⟨instanceCfg_wf 0 0, rfl, by decide, by decide, by decide, rfl, by decide, rfl, by decide⟩

theorem witness_CommandWritesAtMostOneEntry :
    actionOf cfg (.setMicMute 0) = .masked (fieldTable .micMute) 0 ∧ (3 : RegAddr) ≠ (fieldTable .micMute).reg ∧
    actionOf cfg (.powerOn 0) = .full 6 0x01FF ∧ (9 : RegAddr) ≠ 6 ∧ actionOf cfg (.read 3) = .read 3 ∧
    (∃ t, exec (.read 10) inited = .next t ∧ t.rspStatus ≠ .ok) ∧ actionOf cfg (.init 0) = .init ∧
    actionOf cfg (.read 3) ≠ .init :=
  ⟨rfl, by decide, rfl, by decide, rfl, ⟨_, rfl, by decide⟩, rfl, fun h => by cases h⟩

theorem witness_ChangedEntriesAreSent :
    ∃ t, exec (.setMicMute 0) inited = .next t ∧ t.readShadow 4 ≠ inited.readShadow 4 :=
  ⟨_, rfl, by decide⟩

theorem witness_InitializedChangesOnlyByInitAndReset :
    (∃ t, step { State.reset with inputs := [.command 0x010000] } = .next t ∧ State.reset.initialized = false ∧
      t.initialized = true) ∧
    (∃ t, step { inited with inputs := [.edge ⟨true, false, 0⟩] } = .next t ∧ inited.initialized = true ∧
      t.initialized = false) :=
  ⟨⟨_, rfl, rfl, by decide⟩, ⟨_, rfl, rfl, by decide⟩⟩

theorem witness_MaskedWriteLaws :
    (fieldTable .sampleRateCode).wf = true ∧
    (0x0020#16) &&& ~~~(fieldTable .sampleRateCode).mask = 0x003C#16 &&& ~~~(fieldTable .sampleRateCode).mask := by
  decide

theorem witness_MaskedWriteStoresLowBitsOnly :
    (fieldTable .headphoneLeftVolume).wf = true ∧ (FieldDescriptor.mk (0 : RegAddr) 0xFFFF 0 16).wf = true := by decide

theorem witness_FieldsOfOneRegisterAreIsolated :
    (instanceCfg 0 0).wf = true ∧ FieldName.micBoost ≠ .sidetoneLevel ∧
    (fieldTable .micBoost).reg = (fieldTable .sidetoneLevel).reg :=
  ⟨instanceCfg_wf 0 0, by decide⟩

theorem witness_FrameCarriesAddressThenData : (instanceCfg 0 0).wf = true ∧ twelve.wf = true :=
  ⟨instanceCfg_wf 0 0, test_wf_accepts⟩

theorem witness_ListenerHearsTheFrame :
    Listener.start.lines.atRest ∧ (1 ≤ 1 ∧ 1 ≤ 49) ∧ (1 ≤ 49 ∧ 49 ≤ 49) ∧ (15 < 16 ∧ 2 ≤ 4 ∧ 4 ≤ 4) :=
  ⟨⟨rfl, rfl⟩, by decide, by decide, by decide⟩

theorem witness_CommandsAreHeardAsTheirFrames :
    (∃ t, exec (.setMicMute 0) inited = .next t) ∧ (replay inited.trace).atRest ∧ inited.initialized = true ∧
    actionOf cfg (.init 0) = .init ∧ actionOf cfg (.setMicMute 0) = .masked (fieldTable .micMute) 0 ∧
    actionOf cfg (.powerOn 0) = .full 6 0x01FF ∧ actionOf cfg (.read 3) = .read 3 ∧
    (∃ t, exec (.read 10) inited = .next t ∧ t.rspStatus ≠ .ok) :=
  ⟨⟨_, rfl⟩, ⟨rfl, rfl⟩, rfl, rfl, rfl, rfl, rfl, ⟨_, rfl, by decide⟩⟩

theorem witness_ResetEdgeRestoresTheTable :
    (instanceCfg 0 0).wf = true ∧ (⟨true, true, 0x010000⟩ : PortIn).rst = true := ⟨instanceCfg_wf 0 0, rfl⟩

theorem witness_BusyCoreIgnoresTheCommandPort :
    (instanceCfg 0 0).wf = true ∧ running.cmdReady = false ∧ (presenting 0x010000).rst = idlePorts.rst ∧
    inited.cmdReady = true :=
  ⟨instanceCfg_wf 0 0, by decide⟩

theorem witness_FrameEventsKeepTheSchedule :
    (instanceCfg 3 0).wf = true ∧ 0 ≤ 50 * ((instanceCfg 3 0).delay + 1) ∧ 200 ≤ 50 * ((instanceCfg 3 0).delay + 1) :=
  ⟨instanceCfg_wf 3 0, by decide⟩

theorem witness_CoreIsBusyUntilTheResponse :
    (instanceCfg 0 0).wf = true ∧ (instanceCfg 9 0).wf = true ∧ inited.seq = .ready ∧
    49 < latency (instanceCfg 0 0) 0x480000 inited ∧
    4999 < latency (instanceCfg 9 0) 0x010000 inited ∧ latency (instanceCfg 9 0) 0x020000 inited < 1 :=
  ⟨instanceCfg_wf 0 0, instanceCfg_wf 9 0, by decide⟩

theorem witness_TxCounterFitsItsWidth :
    (instanceCfg 3 0).wf = true ∧ running.seq = .busy ∧ running.txCnt < (instanceCfg 3 0).delay ∧
    running.txCnt ≤ (instanceCfg 3 0).delay ∧
    idlePorts.rst = false :=
  ⟨instanceCfg_wf 3 0, by decide⟩

/-- R211: `ceil(log2(DELAY + 1))` for delays 0, 1, 2, 3, 4, 9. -/
theorem test_counter_width : [0, 1, 2, 3, 4, 9].map cntWidth = [0, 1, 2, 2, 3, 4] := by decide +kernel

/-- One edge with a response and the next without one. -/
theorem witness_ResponsePortShowsEachResponseForOneCycle :
    (instanceCfg 0 0).wf = true ∧ idlePorts.rst = false ∧
    (edge (instanceCfg 0 0) (presenting 0x020008) inited).rspValid = true ∧
    (edge (instanceCfg 0 0) idlePorts (edge (instanceCfg 0 0) (presenting 0x020008) inited)).rspValid = false :=
  ⟨instanceCfg_wf 0 0, by decide⟩

/-- Also for `DelayChangesOnlyTheTiming`. -/
theorem witness_CommandRunRefinesOperation :
    (instanceCfg 0 0).wf = true ∧ State.reset.seq = .ready ∧ inited.seq = .ready := ⟨instanceCfg_wf 0 0, rfl, rfl⟩

theorem witness_AnyHostRunRefinesOperationLevel :
    (instanceCfg 0 0).wf = true ∧ State.reset.seq = .ready ∧
    ∀ p ∈ [presenting 0x010000, idlePorts, presenting 0x480000], p.rst = false :=
  ⟨instanceCfg_wf 0 0, rfl, by decide⟩

/-- A ready state that meets the invariant, and the step from it. -/
theorem witness_EveryStepKeepsTheInvariant : inited.Inv ∧ ∃ t, step inited = .next t where
  left :=
    { lines_replay   := rfl
      ready_rest     := fun _ => ⟨rfl, rfl⟩
      count_bound    := Nat.zero_le _
      busy_reason    := fun h => by cases h
      frame_progress := fun h => by cases h
      frame_word     := fun h => by cases h
      init_table     := fun h => by cases h
      high_zero      := fun _ => by decide }
  right := ⟨_, rfl⟩

/-- A busy state that meets the invariant. -/
theorem witness_EveryAcceptedCommandIsAnswered : running.Inv ∧ running.seq = .busy where
  left :=
    { lines_replay   := rfl
      ready_rest     := fun h => by cases h
      count_bound    := Nat.zero_le _
      busy_reason    := fun _ => .inl rfl
      frame_progress := fun _ => ⟨[], rfl, rfl, rfl⟩
      frame_word     := fun _ => ⟨9, rfl, fun h => by cases h⟩
      init_table     := fun _ h => by cases h
      high_zero      := fun _ => by decide }
  right := rfl

theorem witness_UnresetTableIsNeverObserved :
    State.Alike State.reset { State.reset with shadow := defaultTable } := ⟨rfl, .inr ⟨rfl, rfl⟩⟩

end Sys2Proof.Tests
end

section
/-!
PROOFS. The scope's statements (spec 00_scope.md R2, R9), the step: what it runs for a command word at the front of the input
list, and that it is `stepFor` at the machine's own `Cfg`.
-/

namespace Sys2Proof.Machine

/-- A ready core takes a command word off the front of the list (R41). -/
theorem fetch_of_command {n : Nat} {s : State n} {w : CmdWord} {rest : List Input}
    (hin : s.inputs = .command w :: rest) (hs : s.seq = .ready) :
    fetch s = (.command w, { s with inputs := rest }) := by
  simp [fetch, hin, hs]

/-- A word that selects a command is run as that command (R110). -/
theorem step_of_command {s t : State} {w : CmdWord} {i : Instr}
    (hf : fetch s = (.command w, t)) (hd : decode w = .ok i) : step s = exec i t := by
  simp [step, hf, hd]

/-- A reserved word is answered with `ErrIllegal` (R201). -/
theorem step_of_reserved {s t : State} {w : CmdWord} {e : DecodeError}
    (hf : fetch s = (.command w, t)) (hd : decode w = .error e) : step s = .next (t.afterAnswer .errIllegal 0) := by
  simp [step, hf, hd, respond_eq]

/-- All 24 bits of a command word survive its being written as a number. -/
@[simp] theorem wordOfBits_toNat (w : CmdWord) : wordOfBits 24 w.toNat = w := by
  rw [wordOfBits, Nat.mod_eq_of_lt w.isLt, BitVec.ofNat_toNat, BitVec.setWidth_eq]

/-- The word that `withFetchWord` places is the one the next step takes (log entry 9). -/
theorem fetch_withFetchWord (s : State) (w : CmdWord) :
    fetch (s.withFetchWord 24 w.toNat) = (.command w, { s with seq := .ready }) := by
  rw [State.withFetchWord, wordOfBits_toNat]
  exact fetch_of_command rfl rfl

/-- Settles O7: each clause says what `fetch` takes and what `decode` makes of it. -/
theorem stepRunsTheDecodedCommand : Obligations.StepRunsTheDecodedCommand := by
  refine ⟨?_, ?_, ?_⟩
  · intro s w rest i hin hs hd
    exact step_of_command (fetch_of_command hin hs) hd
  · intro s i hd
    exact step_of_command (fetch_withFetchWord s (encode i)) hd
  · intro s w rest e hin hs hd
    exact step_of_reserved (fetch_of_command hin hs) hd

/-- At the machine's `Cfg`, `Execute` of a word that selects a command is `exec` of the command (R110). -/
theorem exec_eq_execute {w : CmdWord} {i : Instr} (hd : decode w = .ok i) (s : State) :
    exec i s = .next (execute cfg w s) := by
  rw [exec_eq_perform]
  simp [execute, hd]

/-- Settles O49: whatever `fetch` gives, the two steps do the same with it. -/
theorem stepIsTheInstanceOfStepFor : Obligations.StepIsTheInstanceOfStepFor := by
  refine ⟨rfl, rfl, fun s => ?_⟩
  cases hf : fetch s with
  | mk what t =>
    cases what with
    | edge p => simp [step, stepFor, hf]
    | command w =>
      cases hd : decode w with
      | ok i => simp [step_of_command hf hd, exec_eq_execute hd, stepFor, hf]
      | error e => simp [step_of_reserved hf hd, stepFor, hf, execute, hd, respond_eq]

end Sys2Proof.Machine
end

section
/-!
PROOFS. One command at the cycle level is the command at the operation level (spec 41_model_core.md R123, R124). A frame's
edges are `Transmit`; a writing command is one frame; `init` is one frame for each register, by induction over the registers
still to be sent.
-/

namespace Sys2Proof.Machine

variable {n : Nat}

/-- The end of the frame of a writing command (R122). -/
theorem frameDone_of_write (s : State n) (hi : s.isInit = false) :
    frameDone s = respond .ok 0 { s with seq := .ready } := by
  rw [frameDone, dif_neg (by simp [hi])]
  simp [hi]

/-- The end of a frame of `init` before the last register: the next one is loaded (R122). -/
theorem frameDone_of_next (s : State n) (hi : s.isInit = true) (h : s.initIdx.val + 1 < n) :
    frameDone s = load ⟨s.initIdx.val + 1, h⟩ (s.readShadow ⟨s.initIdx.val + 1, h⟩)
      { s with initIdx := ⟨s.initIdx.val + 1, h⟩ } := by
  rw [frameDone, dif_pos ⟨hi, h⟩]

/-- The end of the last frame of `init` (R122). -/
theorem frameDone_of_last (s : State n) (hi : s.isInit = true) (h : s.initIdx.val + 1 = n) :
    frameDone s = (respond .ok 0 { s with seq := .ready }).setInitialized := by
  rw [frameDone, dif_neg (by omega)]
  simp [hi]

/-- The edges of a loaded frame perform `Transmit` of its word, then what ends a frame (R90, R98). -/
theorem idleEdges_load (c : Cfg) (a : Fin c.nRegs) (w : Word) (s : State c.nRegs) :
    idleEdges c (50 * (c.delay + 1)) (load a w s) =
      frameDone (transmit (busAddr a) (busWord w) { s with seq := .busy, rspValid := false }) := by
  rw [frameRun c (load a w s) rfl rfl rfl, transmit_eq]
  rfl

/-- The edges of a writing command store, send and answer as `MaskedWrite` and `FullWrite` do (R111, R112, R123). -/
theorem idleEdges_startWrite (c : Cfg) (a : Fin c.nRegs) (new : Word) (s : State c.nRegs) (hs : s.seq = .ready) :
    idleEdges c (50 * (c.delay + 1)) (startWrite a new s) = s.afterWrite a new := by
  rw [startWrite, idleEdges_load, frameDone_of_write _ (by simp [transmit_eq]), ← storeAndSend_eq, storeAndSend,
    transmit_eq, transmit_eq]
  simp [respond, State.writeShadow, hs]

/-- Between two frames of `init`, as the operation level sees it: the table is loaded, nothing is answered yet. -/
structure State.InInit (c : Cfg) (s : State c.nRegs) : Prop where
  isInit : s.isInit = true
  loaded : s.shadow = c.defaults
  ready  : s.seq = .ready
  silent : s.rspValid = false

/-- Each transaction of `init` leaves it between two frames. -/
theorem State.InInit.sendDefault {c : Cfg} {s : State c.nRegs} (h : s.InInit c) (a : Fin c.nRegs) :
    (sendDefault c s a).InInit c := by
  obtain ⟨hi, hl, hr, hv⟩ := h
  unfold Machine.sendDefault
  rw [transmit_eq]
  exact ⟨hi, hl, hr, hv⟩

/-- The state in which `init` begins to send register `a` (R122). -/
def initSending (c : Cfg) (a : Fin c.nRegs) (s : State c.nRegs) : State c.nRegs :=
  load a c.defaults[a.val] { s with initIdx := a }

/-- One frame of `init` performs the transaction of its register, then what ends a frame (R115, R122). -/
theorem idleEdges_initSending (c : Cfg) (a : Fin c.nRegs) (s : State c.nRegs) (h : s.InInit c) :
    idleEdges c (50 * (c.delay + 1)) (initSending c a s) = frameDone { sendDefault c s a with seq := .busy } := by
  rw [initSending, idleEdges_load, sendDefault, transmit_eq, transmit_eq]
  simp [h.silent]

theorem sendDefault_initIdx (c : Cfg) (s : State c.nRegs) (a : Fin c.nRegs) : (sendDefault c s a).initIdx = a := by
  rw [sendDefault, transmit_eq]

/-- A frame before the last leads to the frame of the next register (R63, R122). -/
theorem idleEdges_initSending_next (c : Cfg) (a b : Fin c.nRegs) (s : State c.nRegs) (h : s.InInit c)
    (hb : b.val = a.val + 1) :
    idleEdges c (50 * (c.delay + 1)) (initSending c a s) = initSending c b (sendDefault c s a) := by
  have hidx := sendDefault_initIdx c s a
  rw [idleEdges_initSending c a s h]
  obtain ⟨hi, hl, -, -⟩ := h.sendDefault a
  generalize sendDefault c s a = t at *
  subst hidx
  have hlt : t.initIdx.val + 1 < c.nRegs := hb ▸ b.isLt
  obtain rfl : b = ⟨t.initIdx.val + 1, hlt⟩ := Fin.ext hb
  rw [frameDone_of_next { t with seq := .busy } hi hlt]
  simp [initSending, State.readShadow, load, hl]

/-- The last frame leads to the answer of `init` (R115, R122). -/
theorem idleEdges_initSending_last (c : Cfg) (a : Fin c.nRegs) (s : State c.nRegs) (h : s.InInit c)
    (ha : a.val + 1 = c.nRegs) :
    idleEdges c (50 * (c.delay + 1)) (initSending c a s) = respond .ok 0 (sendDefault c s a).setInitialized := by
  have hidx := sendDefault_initIdx c s a
  rw [idleEdges_initSending c a s h]
  obtain ⟨hi, -, hr, -⟩ := h.sendDefault a
  generalize sendDefault c s a = t at *
  subst hidx
  rw [frameDone_of_last { t with seq := .busy } hi ha]
  simp [respond, State.setInitialized, ← hr]

/-- The registers from `k` on begin with `k` (R63). -/
theorem allRegs_drop_eq_cons {k : Nat} {a : Fin n} {as : List (Fin n)} (h : (allRegs n).drop k = a :: as) :
    a.val = k ∧ (allRegs n).drop (k + 1) = as ∧ k + 1 + as.length = n := by
  have hlen : n - k = as.length + 1 := by simpa [allRegs] using congrArg List.length h
  have hk : k < (allRegs n).length := by simp [allRegs]; omega
  rw [List.drop_eq_getElem_cons hk] at h
  obtain ⟨ha, has⟩ := List.cons.inj h
  exact ⟨by simp [← ha, allRegs], has, by omega⟩

/-- The frames of `init` from register `a` on perform the transactions from `a` on, then the answer (R115, R122). -/
theorem idleEdges_initSending_all (c : Cfg) (as : List (Fin c.nRegs)) (a : Fin c.nRegs) (s : State c.nRegs)
    (h : s.InInit c) (has : (allRegs c.nRegs).drop a.val = a :: as) :
    idleEdges c ((as.length + 1) * (50 * (c.delay + 1))) (initSending c a s) =
      respond .ok 0 ((a :: as).foldl (sendDefault c) s).setInitialized := by
  obtain ⟨-, hdrop, hlen⟩ := allRegs_drop_eq_cons has
  induction as generalizing a s with
  | nil =>
    rw [List.length_nil, Nat.zero_add, Nat.one_mul, idleEdges_initSending_last c a s h hlen,
      List.foldl_cons, List.foldl_nil]
  | cons b bs ih =>
    obtain ⟨hb, hdrop', hlen'⟩ := allRegs_drop_eq_cons hdrop
    rw [← hb] at hdrop hdrop' hlen'
    rw [List.length_cons, Nat.succ_mul, Nat.add_comm, idleEdges_add, List.foldl_cons,
      idleEdges_initSending_next c a b s h hb, ih b _ (h.sendDefault a) hdrop hdrop' hlen']

/-- The edges of `init` do what `Init` does (R115, R123). -/
theorem idleEdges_accept_init (c : Cfg) (s : State c.nRegs) (hs : s.seq = .ready) (hv : s.rspValid = false) :
    idleEdges c (c.nRegs * (50 * (c.delay + 1))) (acceptAction c .init s) = initAll c s := by
  have hpos : 0 < (allRegs c.nRegs).length := by simpa [allRegs] using c.nRegs_pos
  have hcons : (allRegs c.nRegs).drop 0 = c.firstReg :: (allRegs c.nRegs).drop 1 := by
    rw [List.drop_eq_getElem_cons hpos]
    simp [allRegs, Cfg.firstReg]
  have hlen : ((allRegs c.nRegs).drop 1).length + 1 = c.nRegs := by
    obtain ⟨-, -, h⟩ := allRegs_drop_eq_cons hcons
    omega
  have hrun := idleEdges_initSending_all c _ c.firstReg { s with shadow := c.defaults, isInit := true }
    ⟨rfl, rfl, hs, hv⟩ hcons
  rw [hlen, ← hcons, List.drop_zero] at hrun
  exact hrun

/-- The latency of a command by its class, for a core whose flag is `initialized` (R244). -/
def Action.latency (c : Cfg) (initialized : Bool) : Action c.nRegs → Nat
  | .init => c.nRegs * (50 * (c.delay + 1))
  | act   => if initialized then act.frames * (50 * (c.delay + 1)) else 0

theorem latency_of_command {c : Cfg} {w : CmdWord} {i : Instr} (hd : decode w = .ok i) (s : State c.nRegs) :
    latency c w s = (actionOf c i).latency c s.initialized := by
  simp only [latency, hd]
  cases actionOf c i <;> rfl

theorem latency_of_reserved {c : Cfg} {w : CmdWord} {e : DecodeError} (hd : decode w = .error e) (s : State c.nRegs) :
    latency c w s = 0 := by
  rw [latency, hd]

/-- A writing command, guarded by the check of R202, at both levels: one frame's edges, or the refusal at once. -/
theorem idleEdges_guarded_write (c : Cfg) (a : Fin c.nRegs) (new : Word) (s : State c.nRegs) (hs : s.seq = .ready) :
    idleEdges c (if s.initialized then 1 * (50 * (c.delay + 1)) else 0) (whenInitialized s (startWrite a new)) =
      whenInitialized s (storeAndSend a new) := by
  cases h : s.initialized with
  | false => simp [h, idleEdges]
  | true => simp [h, idleEdges_startWrite c a new s hs, storeAndSend_eq]

/-- The edges of an accepted command do what `Execute` does, by the command's class (R110, R123). -/
theorem idleEdges_acceptAction (c : Cfg) (act : Action c.nRegs) (s : State c.nRegs) (hs : s.seq = .ready)
    (hv : s.rspValid = false) :
    idleEdges c (act.latency c s.initialized) (acceptAction c act s) = perform c act s := by
  cases act with
  | init => exact idleEdges_accept_init c s hs hv
  | read arg => simp [Action.latency, Action.frames, idleEdges, acceptAction, perform]
  | masked fd v => exact idleEdges_guarded_write c fd.reg (mergeField fd (s.readShadow fd.reg) v) s hs
  | full a word => exact idleEdges_guarded_write c a word s hs

/-- `read` answers whatever the response port's valid bit was before (R42). -/
theorem readRegister_rspValid (arg : Word) (b : Bool) (s : State n) :
    readRegister arg { s with rspValid := b } = readRegister arg s := by
  unfold readRegister
  cases readAddress n arg <;> rfl

/-- The check of R202 does not look at the response port. -/
theorem whenInitialized_rspValid (s : State n) (b : Bool) (run : State n → State n)
    (hrun : run { s with rspValid := b } = run s) :
    whenInitialized { s with rspValid := b } run = whenInitialized s run := by
  rw [whenInitialized, whenInitialized, hrun]
  rfl

/-- A command answers whatever the response port's valid bit was before (R42). -/
theorem perform_rspValid (c : Cfg) (act : Action c.nRegs) (b : Bool) (s : State c.nRegs) :
    perform c act { s with rspValid := b } = perform c act s := by
  cases act with
  | init => rw [perform, perform, initAll_eq, initAll_eq]
  | read arg => exact whenInitialized_rspValid s b _ (readRegister_rspValid arg b s)
  | masked fd v =>
    refine whenInitialized_rspValid s b _ ?_
    rw [maskedWrite_eq, maskedWrite_eq]
    rfl
  | full a word =>
    refine whenInitialized_rspValid s b _ ?_
    rw [fullWrite_eq, fullWrite_eq]
    rfl

/-- Settles O42: the accepting edge ends the previous response's cycle, and then the command's class decides. -/
theorem commandRunRefinesOperation : Obligations.CommandRunRefinesOperation := by
  intro c w s _ hs
  rw [edge_accept c (presenting w) s rfl rfl hs]
  cases hd : decode w with
  | error e =>
    rw [latency_of_reserved hd]
    simp [idleEdges, accept, execute, presenting, hd, respond]
  | ok i =>
    have hrun := idleEdges_acceptAction c (actionOf c i) { s with rspValid := false } hs rfl
    rw [perform_rspValid] at hrun
    rw [latency_of_command hd]
    simpa [accept, execute, presenting, hd] using hrun

end Sys2Proof.Machine
end

section
/-!
PROOFS. What a command can do, at both levels, and what a step can do: said once, for every invariant of the machine
(spec 10_state.md R41, 41_model_core.md R110, R122).
-/

namespace Sys2Proof.Machine

variable {n : Nat}

/-- The check of R202 refuses a command or lets it run. -/
theorem whenInitialized_cases (s : State n) (run : State n → State n) :
    (s.initialized = false ∧ whenInitialized s run = s.afterAnswer .errUninit 0) ∨
    (s.initialized = true ∧ whenInitialized s run = run s) := by
  cases h : s.initialized with
  | false => exact .inl ⟨rfl, whenInitialized_false s run h⟩
  | true => exact .inr ⟨rfl, whenInitialized_true s run h⟩

/-- `read` is an answer, and an answer other than `OK` has no data (R114, R207). -/
theorem readRegister_answers (arg : Word) (s : State n) :
    ∃ st d, readRegister arg s = s.afterAnswer st d ∧ (st ≠ .ok → d = 0) := by
  obtain ⟨a, -, h⟩ | ⟨-, h⟩ := readRegister_cases arg s
  · exact ⟨.ok, _, h, fun hne => absurd rfl hne⟩
  · exact ⟨.errAddr, 0, h, fun _ => rfl⟩

/-- A class of command that writes one entry, run from `s`, stores `new` in entry `a` (R111, R112). -/
def Action.Stores (s : State n) (a : Fin n) (new : Word) : Action n → Prop
  | .init        => False
  | .read _      => False
  | .masked fd v => a = fd.reg ∧ new = mergeField fd (s.readShadow fd.reg) v
  | .full b w    => a = b ∧ new = w

/-- A command at the operation level only answers, or is `init`, or stores and sends one entry (R110). -/
theorem perform_outcomes (c : Cfg) (act : Action c.nRegs) (s : State c.nRegs) :
    (∃ st d, perform c act s = s.afterAnswer st d) ∨
    (act = .init ∧ perform c act s = initAll c s) ∨
    (s.initialized = true ∧ ∃ a new, act.Stores s a new ∧ perform c act s = s.afterWrite a new) := by
  obtain ⟨ha, h⟩ | ⟨-, -, h⟩ | ⟨-, arg, -, h⟩ | ⟨hi, fd, v, rfl, h⟩ | ⟨hi, a, w, rfl, h⟩ := perform_cases c act s
  · exact .inr (.inl ⟨ha, h⟩)
  · exact .inl ⟨_, _, h⟩
  · obtain ⟨st, d, hr, -⟩ := readRegister_answers arg s
    exact .inl ⟨st, d, h.trans hr⟩
  · exact .inr (.inr ⟨hi, _, _, ⟨rfl, rfl⟩, h⟩)
  · exact .inr (.inr ⟨hi, _, _, ⟨rfl, rfl⟩, h⟩)

/-- A command at its accepting edge only answers, or begins to send register 0 of `init`, or stores one entry and begins to
send it (R122). -/
theorem acceptAction_outcomes (c : Cfg) (act : Action c.nRegs) (s : State c.nRegs) :
    (∃ st d, acceptAction c act s = s.afterAnswer st d) ∨
    (act = .init ∧
      acceptAction c act s = initSending c c.firstReg { s with shadow := c.defaults, isInit := true }) ∨
    (s.initialized = true ∧ ∃ a new, act.Stores s a new ∧ acceptAction c act s = startWrite a new s) := by
  cases act with
  | init => exact .inr (.inl ⟨rfl, rfl⟩)
  | read arg =>
    obtain ⟨-, h⟩ | ⟨-, h⟩ := whenInitialized_cases s (readRegister arg)
    · exact .inl ⟨_, _, h⟩
    · obtain ⟨st, d, hr, -⟩ := readRegister_answers arg s
      exact .inl ⟨st, d, h.trans hr⟩
  | masked fd v =>
    obtain ⟨-, h⟩ | ⟨hi, h⟩ :=
      whenInitialized_cases s (startWrite fd.reg (mergeField fd (s.readShadow fd.reg) v))
    · exact .inl ⟨_, _, h⟩
    · exact .inr (.inr ⟨hi, _, _, ⟨rfl, rfl⟩, h⟩)
  | full a w =>
    obtain ⟨-, h⟩ | ⟨hi, h⟩ := whenInitialized_cases s (startWrite a w)
    · exact .inl ⟨_, _, h⟩
    · exact .inr (.inr ⟨hi, _, _, ⟨rfl, rfl⟩, h⟩)

/-- `Execute` of a word that selects a command is the meaning of the command's class (R110). -/
theorem execute_of_command {c : Cfg} {w : CmdWord} {i : Instr} (hd : decode w = .ok i) (s : State c.nRegs) :
    execute c w s = perform c (actionOf c i) s := by
  rw [execute, hd]

theorem execute_of_reserved {c : Cfg} {w : CmdWord} {e : DecodeError} (hd : decode w = .error e) (s : State c.nRegs) :
    execute c w s = s.afterAnswer .errIllegal 0 := by
  rw [execute, hd, raiseErr_eq, respond_eq]

/-- `Accept` of a word that selects a command is that of the command's class (R122). -/
theorem accept_of_command {c : Cfg} {w : CmdWord} {i : Instr} (hd : decode w = .ok i) (s : State c.nRegs) :
    accept c w s = acceptAction c (actionOf c i) s := by
  rw [accept, hd]

theorem accept_of_reserved {c : Cfg} {w : CmdWord} {e : DecodeError} (hd : decode w = .error e) (s : State c.nRegs) :
    accept c w s = s.afterAnswer .errIllegal 0 := by
  rw [accept, hd, raiseErr_eq, respond_eq]

/-- `Execute` of a word only answers, or is `init`, or stores and sends one entry (R110). -/
theorem execute_outcomes (c : Cfg) (w : CmdWord) (s : State c.nRegs) :
    (∃ st d, execute c w s = s.afterAnswer st d) ∨
    (∃ i, decode w = .ok i ∧ actionOf c i = .init ∧ execute c w s = initAll c s) ∨
    (s.initialized = true ∧ ∃ i a new, (actionOf c i).Stores s a new ∧ execute c w s = s.afterWrite a new) := by
  cases hd : decode w with
  | error e => exact .inl ⟨.errIllegal, 0, execute_of_reserved hd s⟩
  | ok i =>
    rw [execute_of_command hd]
    obtain h | ⟨ha, h⟩ | ⟨hi, a, new, hst, h⟩ := perform_outcomes c (actionOf c i) s
    · exact .inl h
    · exact .inr (.inl ⟨i, rfl, ha, h⟩)
    · exact .inr (.inr ⟨hi, i, a, new, hst, h⟩)

/-- The accepting edge of a word only answers, or begins `init`, or stores one entry and begins to send it (R122). -/
theorem accept_outcomes (c : Cfg) (w : CmdWord) (s : State c.nRegs) :
    (∃ st d, accept c w s = s.afterAnswer st d) ∨
    accept c w s = initSending c c.firstReg { s with shadow := c.defaults, isInit := true } ∨
    (s.initialized = true ∧ ∃ i a new, (actionOf c i).Stores s a new ∧ accept c w s = startWrite a new s) := by
  cases hd : decode w with
  | error e => exact .inl ⟨.errIllegal, 0, accept_of_reserved hd s⟩
  | ok i =>
    rw [accept_of_command hd]
    obtain h | ⟨-, h⟩ | ⟨hi, a, new, hst, h⟩ := acceptAction_outcomes c (actionOf c i) s
    · exact .inl h
    · exact .inr (.inl h)
    · exact .inr (.inr ⟨hi, i, a, new, hst, h⟩)

section TxEvent

variable (s : State n)

@[simp] theorem txEvent_initialized : (txEvent s).initialized = s.initialized := by unfold txEvent; split <;> rfl
@[simp] theorem txEvent_isInit : (txEvent s).isInit = s.isInit := by unfold txEvent; split <;> rfl
@[simp] theorem txEvent_txStep : (txEvent s).txStep = s.txStep := by unfold txEvent; split <;> rfl
@[simp] theorem txEvent_txCnt : (txEvent s).txCnt = s.txCnt := by unfold txEvent; split <;> rfl
@[simp] theorem txEvent_rspValid : (txEvent s).rspValid = s.rspValid := by unfold txEvent; split <;> rfl
@[simp] theorem txEvent_rspStatus : (txEvent s).rspStatus = s.rspStatus := by unfold txEvent; split <;> rfl
@[simp] theorem txEvent_rspData : (txEvent s).rspData = s.rspData := by unfold txEvent; split <;> rfl
@[simp] theorem txEvent_responses : (txEvent s).responses = s.responses := by unfold txEvent; split <;> rfl

end TxEvent

/-- The sequencer has two values (R45). -/
theorem State.ready_or_busy (s : State n) : s.seq = .ready ∨ s.seq = .busy := by
  cases s.seq with
  | ready => exact .inl rfl
  | busy => exact .inr rfl

/-- What a clock edge does, by the ports and the sequencer: a reset, the end of the response's cycle, the acceptance of a word,
or an edge of the transmitter (R122). -/
theorem edge_cases (c : Cfg) (p : PortIn) (s : State c.nRegs) :
    (p.rst = true ∧ edge c p s = resetEdge c s) ∨
    (p.rst = false ∧ s.seq = .ready ∧ edge c p s = { s with rspValid := false }) ∨
    (p.rst = false ∧ s.seq = .ready ∧ edge c p s = accept c p.cmdWord { s with rspValid := false }) ∨
    (p.rst = false ∧ s.seq = .busy ∧ edge c p s = txEdge c.delay { s with rspValid := false }) := by
  cases hr : p.rst with
  | true => exact .inl ⟨rfl, edge_reset c p s hr⟩
  | false =>
    obtain hs | hs := s.ready_or_busy
    · cases hv : p.cmdValid with
      | false => exact .inr (.inl ⟨rfl, hs, edge_idle c p s hr hv hs⟩)
      | true => exact .inr (.inr (.inl ⟨rfl, hs, edge_accept c p s hr hv hs⟩))
    · exact .inr (.inr (.inr ⟨rfl, hs, edge_busy c p s hr hs⟩))

/-- What a step that leads to `t` was: a whole command on a ready core, the edge that the host gave, or an edge without reset
at which nothing is taken off the input list (log entries 1 and 2). -/
theorem step_next_cases {s t : State} (h : step s = .next t) :
    (∃ w rest, s.inputs = .command w :: rest ∧ s.seq = .ready ∧ t = execute cfg w { s with inputs := rest }) ∨
    (∃ p rest, s.inputs = .edge p :: rest ∧ t = edge cfg p { s with inputs := rest }) ∨
    (∃ p, p.rst = false ∧ t = edge cfg p s) := by
  obtain ⟨w, rest, hin, hs, ⟨i, hd, he⟩ | ⟨e, hd, he⟩⟩ | ⟨w, rest, -, -, he⟩ | ⟨p, rest, hin, he⟩ | ⟨-, he⟩ :=
    step_cases s
  · rw [he, exec_eq_execute hd] at h
    exact .inl ⟨w, rest, hin, hs, (Host.Outcome.next.inj h).symm⟩
  · rw [he, raiseErr_eq, respond_eq, ← execute_of_reserved (c := cfg) hd] at h
    exact .inl ⟨w, rest, hin, hs, (Host.Outcome.next.inj h).symm⟩
  · exact .inr (.inr ⟨presenting w, rfl, (Host.Outcome.next.inj (he.symm.trans h)).symm⟩)
  · exact .inr (.inl ⟨p, rest, hin, (Host.Outcome.next.inj (he.symm.trans h)).symm⟩)
  · exact .inr (.inr ⟨idlePorts, rfl, (Host.Outcome.next.inj (he.symm.trans h)).symm⟩)

end Sys2Proof.Machine
end

section
/-!
PROOFS. The invariant of the machine (spec 10_state.md R43, R46, 40_transmitter.md R96, R99). A state between frames meets it
when its lines are at rest; a state inside a frame meets it when the frame is as far as its registers say. Every step leads
from one of the two kinds to one of the two.
-/

namespace Sys2Proof.Machine

variable {n : Nat}

-- The levels that a sequence of events leaves.

theorem replay_append (es fs : List LineEvent) : replay (es ++ fs) = fs.foldl (fun l e => e.apply l) (replay es) :=
  List.foldl_append

theorem replay_append_event (es : List LineEvent) (e : LineEvent) : replay (es ++ [e]) = e.apply (replay es) := by
  rw [replay_append, List.foldl_cons, List.foldl_nil]

/-- A whole frame leaves the same levels whatever came before it (R96). -/
theorem replay_append_frame (es : List LineEvent) (f : Frame) :
    replay (es ++ frameTrace f) = ⟨true, false, f.getLsbD 0⟩ := by
  rw [replay_append, frameTrace_levels]

/-- The first `k + 1` events of a frame are the first `k` and the event of step `k` (R92, R99). -/
theorem frameTrace_take_succ (f : Frame) (k : Fin 50) :
    (frameTrace f).take (k.val + 1) = (frameTrace f).take k.val ++ [lineEventAt f k.val] := by
  have hk : k.val < (frameTrace f).length := k.isLt
  rw [List.take_succ_eq_append_getElem hk]
  simp [frameTrace_eq_map]

-- Bits 15..9 of what a command stores (R28).

/-- Bits 15..9 of every entry are zero (R28). -/
def State.HighZero (s : State n) : Prop := ∀ a, (s.readShadow a).extractLsb' 9 7 = 0

/-- Every row of `FIELDS` ends at or below bit 8 (R27). -/
theorem fieldTable_ends_by_nine (f : FieldName) : (fieldTable f).shift + (fieldTable f).width ≤ 9 := by
  cases f <;> decide

theorem defaultTable_high_zero (a : RegAddr) : (defaultTable[a.val]).extractLsb' 9 7 = 0 := by
  revert a
  decide

/-- A masked write of a row of `FIELDS` keeps bits 15..9 (R28, R113). -/
theorem mergeField_high (f : FieldName) (old v : Word) :
    (mergeField (fieldTable f) old v).extractLsb' 9 7 = old.extractLsb' 9 7 := by
  apply BitVec.eq_of_getLsbD_eq
  intro i hi
  have hfield := fieldTable_ends_by_nine f
  have hout : ¬ ((fieldTable f).shift ≤ 9 + i ∧ 9 + i < (fieldTable f).shift + (fieldTable f).width) := by omega
  simp only [BitVec.getLsbD_extractLsb', mergeField_bit _ (fieldTable_wf f) old v (9 + i) (by omega), if_neg hout]

/-- The class of a masked write has a row of `FIELDS` (R26, R73). -/
theorem fields_of_actionOf_masked {c : Cfg} {i : Instr} {fd : FieldDescriptor c.nRegs} {v : Word}
    (h : actionOf c i = .masked fd v) : ∃ f, fd = c.fields f := by
  cases i <;> cases h <;> exact ⟨_, rfl⟩

/-- The class of a full-word write has the power register and one of the two power words (R73, R170, R171). -/
theorem power_of_actionOf_full {c : Cfg} {i : Instr} {a : Fin c.nRegs} {w : Word} (h : actionOf c i = .full a w) :
    a = c.powerReg ∧ (w = c.powerOnWord ∨ w = c.powerOffWord) := by
  cases i <;> cases h
  · exact ⟨rfl, .inl rfl⟩
  · exact ⟨rfl, .inr rfl⟩

/-- What a command stores in a loaded table has bits 15..9 zero (R28). -/
theorem stored_high_zero {i : Instr} {s : State} {a : RegAddr} {new : Word} (hs : s.HighZero)
    (h : (actionOf cfg i).Stores s a new) : new.extractLsb' 9 7 = 0 := by
  cases hact : actionOf cfg i with
  | init => rw [hact] at h; exact h.elim
  | read arg => rw [hact] at h; exact h.elim
  | masked fd v =>
    obtain ⟨f, rfl⟩ := fields_of_actionOf_masked hact
    rw [hact] at h
    obtain ⟨rfl, rfl⟩ := h
    exact (mergeField_high f _ v).trans (hs _)
  | full b w =>
    rw [hact] at h
    obtain ⟨rfl, rfl⟩ := h
    obtain ⟨-, rfl | rfl⟩ := power_of_actionOf_full hact <;> decide

theorem State.HighZero.writeShadow {s : State n} (hs : s.HighZero) (a : Fin n) {new : Word}
    (hnew : new.extractLsb' 9 7 = 0) : (s.writeShadow a new).HighZero := by
  intro b
  by_cases hb : a = b
  · subst hb
    rw [readShadow_writeShadow_self, hnew]
  · rw [readShadow_writeShadow_of_ne s a b new hb, hs b]

/-- The default words have bits 15..9 zero (R24, U12). -/
theorem highZero_of_defaults {s : State} (h : s.shadow = cfg.defaults) : s.HighZero := by
  intro a
  rw [State.readShadow, h]
  exact defaultTable_high_zero a

-- Between frames.

/-- A ready state meets the invariant when its lines are at rest, as the events have set them. -/
theorem State.Inv.of_ready {s : State} (hs : s.seq = .ready) (hl : s.lines = replay s.trace) (hr : s.lines.atRest)
    (hc : s.txCnt ≤ cfg.delay) (hz : s.initialized = true → s.HighZero) : s.Inv := by
  have hb : s.seq ≠ .busy := by rw [hs]; decide
  exact
    { lines_replay := hl
      ready_rest := fun _ => hr
      count_bound := hc
      busy_reason := fun h => absurd h hb
      frame_progress := fun h => absurd h hb
      frame_word := fun h => absurd h hb
      init_table := fun h => absurd h hb
      high_zero := fun h => hz (h.resolve_left hb) }

/-- The invariant does not look at the response port, the log of responses or the input list. -/
theorem State.Inv.of_ports {s : State} (h : s.Inv) (v : Bool) (st : Status) (d : Word) (rs : List Response)
    (ins : List Input) :
    State.Inv { s with rspValid := v, rspStatus := st, rspData := d, responses := rs, inputs := ins } :=
  ⟨h.lines_replay, h.ready_rest, h.count_bound, h.busy_reason, h.frame_progress, h.frame_word, h.init_table, h.high_zero⟩

/-- Settles O45: the reset state is ready, its lines are at rest and nothing has happened. -/
theorem invariantHoldsAtReset : Obligations.InvariantHoldsAtReset :=
  State.Inv.of_ready rfl rfl ⟨rfl, rfl⟩ (Nat.zero_le _) (fun h => by cases h)

/-- A reset edge leads to the invariant from any state (R232). -/
theorem inv_resetEdge (s : State) : (resetEdge cfg s).Inv := by
  have hl : replay (s.trace ++ [.reset]) = Lines.reset := replay_append_event s.trace .reset
  exact State.Inv.of_ready rfl hl.symm ⟨rfl, rfl⟩ (Nat.zero_le _) (fun h => by cases h)

/-- A whole writing command keeps the invariant (R96, R111). -/
theorem State.Inv.afterWrite {s : State} (h : s.Inv) (hs : s.seq = .ready) (hi : s.initialized = true) (a : RegAddr)
    {new : Word} (hnew : new.extractLsb' 9 7 = 0) : (s.afterWrite a new).Inv := by
  refine State.Inv.of_ready hs ?_ ⟨rfl, rfl⟩ (Nat.zero_le _) fun _ => ?_
  · rw [show (s.afterWrite a new).trace = s.trace ++ frameTrace (frameOf a new) from rfl, replay_append_frame,
      frameOf_bit_zero]
    rfl
  · exact State.HighZero.writeShadow (h.high_zero (.inr hi)) a hnew

/-- A whole `init` leads to the invariant from any ready state (R115). -/
theorem inv_initAll {s : State} (hs : s.seq = .ready) : (initAll cfg s).Inv := by
  obtain ⟨as, has⟩ := allRegs_last cfg
  rw [initAll_eq]
  refine State.Inv.of_ready hs ?_ ⟨rfl, rfl⟩ (Nat.zero_le _) fun _ => highZero_of_defaults rfl
  rw [has, List.flatMap_append, List.flatMap_cons, List.flatMap_nil, List.append_nil, ← List.append_assoc,
    replay_append_frame, frameOf_bit_zero]

/-- A whole command on a ready core keeps the invariant. -/
theorem State.Inv.execute {s : State} (h : s.Inv) (hs : s.seq = .ready) (w : CmdWord) : (execute cfg w s).Inv := by
  obtain ⟨st, d, he⟩ | ⟨-, -, -, he⟩ | ⟨hi, i, a, new, hst, he⟩ := execute_outcomes cfg w s
  · rw [he]
    exact h.of_ports _ _ _ _ _
  · rw [he]
    exact inv_initAll hs
  · rw [he]
    exact h.afterWrite hs hi a (stored_high_zero (h.high_zero (.inr hi)) hst)

-- Inside a frame.

/-- A busy core, as the invariant has it, when `k` events of the running frame have been performed. -/
structure State.Running (s : State) (k : Nat) : Prop where
  busy     : s.seq = .busy
  replayed : s.lines = replay s.trace
  reason   : s.initialized = true ∨ s.isInit = true
  progress : ∃ before, s.trace = before ++ (frameTrace s.txFrame).take k ∧ (replay before).atRest
  word     : ∃ a, s.txFrame = frameOf a (s.readShadow a) ∧ (s.isInit = true → a = s.initIdx)
  table    : s.isInit = true → s.shadow = cfg.defaults
  highZero : s.HighZero

/-- In `BUSY` the invariant says what is running. -/
theorem State.Inv.running {s : State} (h : s.Inv) (hs : s.seq = .busy) : s.Running s.eventsDone :=
  ⟨hs, h.lines_replay, h.busy_reason hs, h.frame_progress hs, h.frame_word hs, h.init_table hs, h.high_zero (.inl hs)⟩

/-- A busy state meets the invariant when its registers say how far its frame is (R46). -/
theorem State.Running.inv {s : State} (h : s.Running s.eventsDone) (hc : s.txCnt ≤ cfg.delay) : s.Inv where
  lines_replay := h.replayed
  ready_rest := fun hr => absurd (h.busy.symm.trans hr) (by decide)
  count_bound := hc
  busy_reason := fun _ => h.reason
  frame_progress := fun _ => h.progress
  frame_word := fun _ => h.word
  init_table := fun _ => h.table
  high_zero := fun _ => h.highZero

/-- Loading a stored entry starts a frame from rest (R122). -/
theorem inv_load {s : State} {a : RegAddr} {w : Word} (hl : s.lines = replay s.trace) (hr : s.lines.atRest)
    (hb : s.initialized = true ∨ s.isInit = true) (hw : w = s.readShadow a) (ha : s.isInit = true → a = s.initIdx)
    (ht : s.isInit = true → s.shadow = cfg.defaults) (hz : s.HighZero) : (load a w s).Inv := by
  have hrun : (load a w s).Running 0 :=
    { busy := rfl
      replayed := hl
      reason := hb
      progress := ⟨s.trace, (List.append_nil _).symm, hl ▸ hr⟩
      word := ⟨a, by rw [load_txFrame, hw]; rfl, ha⟩
      table := ht
      highZero := hz }
  exact hrun.inv (Nat.zero_le _)

/-- The accepting edge of a word keeps the invariant (R122). -/
theorem State.Inv.accept {s : State} (h : s.Inv) (hs : s.seq = .ready) (w : CmdWord) : (accept cfg w s).Inv := by
  obtain ⟨st, d, he⟩ | he | ⟨hi, i, a, new, hst, he⟩ := accept_outcomes cfg w s
  · rw [he]
    exact h.of_ports _ _ _ _ _
  · rw [he]
    exact inv_load h.lines_replay (h.ready_rest hs) (.inr rfl) rfl (fun _ => rfl) (fun _ => rfl)
      (highZero_of_defaults rfl)
  · rw [he]
    have hz : s.HighZero := h.high_zero (.inr hi)
    exact inv_load h.lines_replay (h.ready_rest hs) (.inl hi) (readShadow_writeShadow_self _ a new).symm
      (fun h => by cases h) (fun h => by cases h) (hz.writeShadow a (stored_high_zero hz hst))

/-- The end of a frame keeps the invariant: the lines are at rest again (R96, R122). -/
theorem State.Running.frameDone {s : State} (h : s.Running 50) (hc : s.txCnt ≤ cfg.delay) : (frameDone s).Inv := by
  obtain ⟨before, htrace, -⟩ := h.progress
  have hl : s.lines = ⟨true, false, s.txFrame.getLsbD 0⟩ := by
    rw [h.replayed, htrace, List.take_of_length_le (frameTrace_length _).le, replay_append_frame]
  have hr : s.lines.atRest := by rw [hl]; exact ⟨rfl, rfl⟩
  obtain ⟨hi, hlt, he⟩ | ⟨-, -, he⟩ | ⟨-, he⟩ := frameDone_cases s
  · rw [he]
    exact inv_load h.replayed hr (.inr hi) rfl (fun _ => rfl) h.table h.highZero
  · rw [he]
    exact State.Inv.of_ready rfl h.replayed hr hc fun _ => h.highZero
  · rw [he]
    exact State.Inv.of_ready rfl h.replayed hr hc fun _ => h.highZero

/-- After the event part of an edge, the event of the current step has been performed (R99). -/
theorem State.Running.txEvent {s : State} (h : s.Running s.eventsDone) : (txEvent s).Running (s.txStep.val + 1) := by
  obtain ⟨before, htrace, hrest⟩ := h.progress
  obtain ⟨h0, he⟩ | ⟨hne, he⟩ := txEvent_cases s
  · have hdone : s.eventsDone = s.txStep.val := by simp [State.eventsDone, h0]
    rw [he]
    refine ⟨h.busy, ?_, h.reason, ⟨before, ?_, hrest⟩, h.word, h.table, h.highZero⟩
    · rw [emit_lines, emit_trace, replay_append_event, h.replayed]
    · rw [emit_trace, emit_txFrame, frameTrace_take_succ, htrace, hdone, List.append_assoc]
  · have hdone : s.eventsDone = s.txStep.val + 1 := by simp [State.eventsDone, hne]
    rw [he, ← hdone]
    exact h

/-- The counting part of an edge keeps the invariant (R99). -/
theorem State.Running.txCount {s : State} (h : s.Running (s.txStep.val + 1)) (hc : s.txCnt ≤ cfg.delay) :
    (txCount cfg.delay s).Inv := by
  obtain ⟨busy, replayed, reason, progress, word, table, highZero⟩ := h
  obtain ⟨hne, he⟩ | ⟨-, hk, he⟩ | ⟨-, hlast, he⟩ := txCount_cases cfg.delay s
  · have hlt : s.txCnt < cfg.delay := Nat.lt_of_le_of_ne hc hne
    rw [he, count_no_wrap cfg.delay s.txCnt hlt]
    exact State.Running.inv ⟨busy, replayed, reason, progress, word, table, highZero⟩ hlt
  · rw [he]
    exact State.Running.inv ⟨busy, replayed, reason, progress, word, table, highZero⟩ (Nat.zero_le _)
  · rw [he]
    rw [hlast] at progress
    exact State.Running.frameDone ⟨busy, replayed, reason, progress, word, table, highZero⟩ (Nat.zero_le _)

/-- An edge of the transmitter keeps the invariant (R99). -/
theorem State.Inv.txEdge {s : State} (h : s.Inv) (hs : s.seq = .busy) : (txEdge cfg.delay s).Inv := by
  have hev := (h.running hs).txEvent
  rw [← txEvent_txStep s] at hev
  exact hev.txCount ((txEvent_txCnt s).trans_le h.count_bound)

/-- A clock edge keeps the invariant, whatever the ports (R122). -/
theorem State.Inv.edge {s : State} (h : s.Inv) (p : PortIn) : (edge cfg p s).Inv := by
  have hv : State.Inv { s with rspValid := false } := h.of_ports _ _ _ _ _
  obtain ⟨-, he⟩ | ⟨-, -, he⟩ | ⟨-, hs, he⟩ | ⟨-, hs, he⟩ := edge_cases cfg p s
  · rw [he]
    exact inv_resetEdge s
  · rw [he]
    exact hv
  · rw [he]
    exact hv.accept hs p.cmdWord
  · rw [he]
    exact hv.txEdge hs

/-- Settles O46: taking an input keeps the invariant, and so does the command or the edge that the step then is. -/
theorem everyStepKeepsTheInvariant : Obligations.EveryStepKeepsTheInvariant := by
  intro s t h hstep
  obtain ⟨w, rest, -, hs, rfl⟩ | ⟨p, rest, -, rfl⟩ | ⟨p, -, rfl⟩ := step_next_cases hstep
  · exact (h.of_ports s.rspValid s.rspStatus s.rspData s.responses rest).execute hs w
  · exact (h.of_ports s.rspValid s.rspStatus s.rspData s.responses rest).edge p
  · exact h.edge p

end Sys2Proof.Machine
end

section
/-!
PROOFS. Noninterference of the unloaded shadow table (spec 10_state.md R47, 60_exceptions.md R202): a core that is ready and
uninitialized answers every word without looking at its table, until `init` or a reset edge replaces the whole of it.
-/

namespace Sys2Proof.Machine

/-- Before `init`, every command but `init` is refused whole (R202). -/
theorem perform_uninitialized {c : Cfg} {act : Action c.nRegs} {s : State c.nRegs} (ha : act ≠ .init)
    (hi : s.initialized = false) : perform c act s = s.afterAnswer .errUninit 0 := by
  cases act with
  | init => exact absurd rfl ha
  | read arg => exact whenInitialized_false s _ hi
  | masked fd v => exact whenInitialized_false s _ hi
  | full a w => exact whenInitialized_false s _ hi

/-- Before `init`, every command but `init` is refused at its accepting edge (R122, R202). -/
theorem acceptAction_uninitialized {c : Cfg} {act : Action c.nRegs} {s : State c.nRegs} (ha : act ≠ .init)
    (hi : s.initialized = false) : acceptAction c act s = s.afterAnswer .errUninit 0 := by
  cases act with
  | init => exact absurd rfl ha
  | read arg => exact whenInitialized_false s _ hi
  | masked fd v => exact whenInitialized_false s _ hi
  | full a w => exact whenInitialized_false s _ hi

/-- The same state with another shadow table. -/
def State.withTable {n : Nat} (s : State n) (x : Vector Word n) : State n := { s with shadow := x }

/-- `init` replaces the whole table, so it ends alike from any (R115). -/
theorem initAll_withTable (c : Cfg) (s : State c.nRegs) (x : Vector Word c.nRegs) :
    initAll c (s.withTable x) = initAll c s := by
  rw [initAll_eq, initAll_eq]
  rfl

theorem State.Alike.refl (s : State) : s.Alike s := ⟨rfl, .inl rfl⟩

/-- Another table of an idle and uninitialized core makes an alike state. -/
theorem alike_withTable {s : State} (hi : s.initialized = false) (hs : s.seq = .ready) (x : Vector Word nRegs) :
    s.Alike (s.withTable x) :=
  ⟨rfl, .inr ⟨hi, hs⟩⟩

/-- Alike states are the same state, or one idle and uninitialized state with two tables. -/
theorem State.Alike.eq_or_withTable {s t : State} (h : s.Alike t) :
    s = t ∨ (s.initialized = false ∧ s.seq = .ready ∧ ∃ x, t = s.withTable x) := by
  obtain ⟨he, hx | ⟨hi, hs⟩⟩ := h
  · exact .inl (by rw [← he, ← hx])
  · exact .inr ⟨hi, hs, t.shadow, he.symm⟩

/-- No output port, response or line event shows the table (R12). -/
theorem State.Alike.observed {s t : State} (h : s.Alike t) : s.observed = t.observed := by
  obtain rfl | ⟨-, -, x, rfl⟩ := h.eq_or_withTable
  · rfl
  · rfl

/-- A whole command leads alike states to alike states (R110). -/
theorem State.Alike.execute {s t : State} (h : s.Alike t) (w : CmdWord) :
    (execute cfg w s).Alike (execute cfg w t) := by
  obtain rfl | ⟨hi, hs, x, rfl⟩ := h.eq_or_withTable
  · exact .refl _
  · cases hd : decode w with
    | error e =>
      rw [execute_of_reserved hd, execute_of_reserved hd]
      exact alike_withTable (s := s.afterAnswer .errIllegal 0) hi hs x
    | ok i =>
      rw [execute_of_command hd, execute_of_command hd]
      by_cases ha : actionOf cfg i = .init
      · rw [ha, perform, perform, initAll_withTable]
        exact .refl _
      · rw [perform_uninitialized ha hi, perform_uninitialized (s := s.withTable x) ha hi]
        exact alike_withTable (s := s.afterAnswer .errUninit 0) hi hs x

/-- The accepting edge of a word leads alike states to alike states (R122). -/
theorem State.Alike.accept {s t : State} (h : s.Alike t) (w : CmdWord) : (accept cfg w s).Alike (accept cfg w t) := by
  obtain rfl | ⟨hi, hs, x, rfl⟩ := h.eq_or_withTable
  · exact .refl _
  · cases hd : decode w with
    | error e =>
      rw [accept_of_reserved hd, accept_of_reserved hd]
      exact alike_withTable (s := s.afterAnswer .errIllegal 0) hi hs x
    | ok i =>
      rw [accept_of_command hd, accept_of_command hd]
      by_cases ha : actionOf cfg i = .init
      · rw [ha]
        exact .refl (acceptAction cfg .init s)
      · rw [acceptAction_uninitialized ha hi, acceptAction_uninitialized (s := s.withTable x) ha hi]
        exact alike_withTable (s := s.afterAnswer .errUninit 0) hi hs x

/-- A clock edge leads alike states to alike states, whatever the ports (R122). -/
theorem State.Alike.edge {s t : State} (h : s.Alike t) (p : PortIn) : (edge cfg p s).Alike (edge cfg p t) := by
  obtain rfl | ⟨hi, hs, x, rfl⟩ := h.eq_or_withTable
  · exact .refl _
  have hv : State.Alike { s with rspValid := false } { s.withTable x with rspValid := false } :=
    alike_withTable (s := { s with rspValid := false }) hi hs x
  cases hr : p.rst with
  | true =>
    rw [edge_reset cfg p s hr, edge_reset cfg p (s.withTable x) hr]
    exact .refl (resetEdge cfg s)
  | false =>
    cases hp : p.cmdValid with
    | false =>
      rw [edge_idle cfg p s hr hp hs, edge_idle cfg p (s.withTable x) hr hp hs]
      exact hv
    | true =>
      rw [edge_accept cfg p s hr hp hs, edge_accept cfg p (s.withTable x) hr hp hs]
      exact hv.accept p.cmdWord

/-- Nothing presented is an idle edge (log entry 2). -/
theorem fetch_of_nothing {n : Nat} {s : State n} (hin : s.inputs = []) : fetch s = (.edge idlePorts, s) := by
  simp [fetch, hin]

/-- An edge is taken off the front of the list whatever the core does (log entry 1). -/
theorem fetch_of_edge {n : Nat} {s : State n} {p : PortIn} {rest : List Input} (hin : s.inputs = .edge p :: rest) :
    fetch s = (.edge p, { s with inputs := rest }) := by
  simp [fetch, hin]

/-- What the host presents to alike states is the same, and taking it leaves them alike. -/
theorem State.Alike.fetch {s t : State} (h : s.Alike t) :
    (fetch s).1 = (fetch t).1 ∧ (fetch s).2.Alike (fetch t).2 := by
  obtain rfl | ⟨hi, hs, x, rfl⟩ := h.eq_or_withTable
  · exact ⟨rfl, .refl _⟩
  cases hin : s.inputs with
  | nil =>
    rw [fetch_of_nothing hin, fetch_of_nothing (s := s.withTable x) hin]
    exact ⟨rfl, h⟩
  | cons input rest =>
    have htake : State.Alike { s with inputs := rest } { s.withTable x with inputs := rest } :=
      alike_withTable (s := { s with inputs := rest }) hi hs x
    cases input with
    | edge p =>
      rw [fetch_of_edge hin, fetch_of_edge (s := s.withTable x) hin]
      exact ⟨rfl, htake⟩
    | command w =>
      rw [fetch_of_command hin hs, fetch_of_command (s := s.withTable x) hin hs]
      exact ⟨rfl, htake⟩

/-- What a step does with what it fetched: a whole command or one clock edge (R9). -/
def runFetched (c : Cfg) (s : State c.nRegs) : Fetched → State c.nRegs
  | .command w => execute c w s
  | .edge p    => edge c p s

/-- Every step runs what it fetched and has a next state (R9, R209). -/
theorem step_eq_run (s : State) : step s = .next (runFetched cfg (fetch s).2 (fetch s).1) := by
  obtain ⟨-, -, hfor⟩ := stepIsTheInstanceOfStepFor
  rw [hfor, stepFor]
  cases fetch s with
  | mk what u => cases what <;> rfl

/-- Alike states have alike next states. -/
theorem State.Alike.step {s t : State} (h : s.Alike t) :
    ∃ s' t', step s = .next s' ∧ step t = .next t' ∧ s'.Alike t' := by
  obtain ⟨hwhat, hrest⟩ := h.fetch
  refine ⟨_, _, step_eq_run s, step_eq_run t, ?_⟩
  rw [← hwhat]
  cases (Machine.fetch s).1 with
  | command w => exact hrest.execute w
  | edge p => exact hrest.edge p

theorem run_succ_of_step {s s' : State} (h : step s = .next s') (k : Nat) : core.run (k + 1) s = core.run k s' := by
  have hcore : core.step s = .next s' := h
  simp only [Host.Core.run, hcore]

/-- Settles O47, by induction on the number of steps: being alike is kept by every step, and alike states look alike. -/
theorem unresetTableIsNeverObserved : Obligations.UnresetTableIsNeverObserved := by
  intro k
  induction k with
  | zero => exact fun s t h => ⟨s, t, rfl, rfl, h.observed⟩
  | succ k ih =>
    intro s t h
    obtain ⟨s', t', hs, ht, h'⟩ := h.step
    rw [run_succ_of_step hs, run_succ_of_step ht]
    exact ih s' t' h'

end Sys2Proof.Machine
end

section
/-!
PROOFS. What a command answers and what it leaves unchanged: the response (spec 10_state.md R42), the table (R21) and the
flag (R22).
-/

namespace Sys2Proof.Machine

/-- A command issues one response, which the port shows, and only an `OK` answer of `read` has data (R42, R200). -/
theorem perform_answers (c : Cfg) (act : Action c.nRegs) (s : State c.nRegs) :
    ∃ r : Response, (perform c act s).responses = s.responses ++ [r] ∧
      ((perform c act s).rspValid = true ∧ (perform c act s).rspStatus = r.status ∧ (perform c act s).rspData = r.data) ∧
      (r.status ≠ .ok → r.data = 0) ∧ ((∀ arg, act ≠ .read arg) → r.data = 0) := by
  obtain ⟨-, h⟩ | ⟨-, -, h⟩ | ⟨-, arg, ha, h⟩ | ⟨-, fd, v, -, h⟩ | ⟨-, a, w, -, h⟩ := perform_cases c act s <;> rw [h]
  · rw [initAll_eq]
    exact ⟨⟨.ok, 0⟩, rfl, ⟨rfl, rfl, rfl⟩, fun _ => rfl, fun _ => rfl⟩
  · exact ⟨⟨.errUninit, 0⟩, rfl, ⟨rfl, rfl, rfl⟩, fun _ => rfl, fun _ => rfl⟩
  · obtain ⟨st, d, hr, hd⟩ := readRegister_answers arg s
    rw [hr]
    exact ⟨⟨st, d⟩, rfl, ⟨rfl, rfl, rfl⟩, hd, fun hne => absurd ha (hne arg)⟩
  · exact ⟨⟨.ok, 0⟩, rfl, ⟨rfl, rfl, rfl⟩, fun _ => rfl, fun _ => rfl⟩
  · exact ⟨⟨.ok, 0⟩, rfl, ⟨rfl, rfl, rfl⟩, fun _ => rfl, fun _ => rfl⟩

/-- Only the command `read` has the class R (R73). -/
theorem eq_read_of_actionOf {c : Cfg} {i : Instr} {arg : Word} (h : actionOf c i = .read arg) : i = .read arg := by
  cases i <;> cases h
  rfl

/-- Only the command `init` has the class I (R73). -/
theorem eq_init_of_actionOf {c : Cfg} {i : Instr} (h : actionOf c i = .init) : ∃ arg, i = .init arg := by
  cases i <;> cases h
  exact ⟨_, rfl⟩

/-- Settles O23: the answer is that of the command's class. -/
theorem everyCommandAnswersOnce : Obligations.EveryCommandAnswersOnce := by
  intro i s
  obtain ⟨r, hresponses, ⟨hvalid, hstatus, hdata⟩, herr, hread⟩ := perform_answers cfg (actionOf cfg i) s
  exact ⟨_, r, exec_eq_perform i s, hresponses, hvalid, hstatus, hdata, herr,
    fun hne => hread fun arg h => hne arg (eq_read_of_actionOf h)⟩

/-- An entry that the command does not store is as it was (R21). -/
theorem readShadow_perform_of_not_stored {c : Cfg} {act : Action c.nRegs} {s : State c.nRegs} {b : Fin c.nRegs}
    (ha : act ≠ .init) (hb : ∀ a new, act.Stores s a new → b ≠ a) :
    (perform c act s).readShadow b = s.readShadow b := by
  obtain ⟨st, d, h⟩ | ⟨hinit, -⟩ | ⟨-, a, new, hst, h⟩ := perform_outcomes c act s
  · rw [h]
    rfl
  · exact absurd hinit ha
  · rw [h]
    exact readShadow_writeShadow_of_ne s a b new (hb a new hst).symm

/-- `read` leaves the whole table (R114). -/
theorem shadow_perform_read (c : Cfg) (arg : Word) (s : State c.nRegs) :
    (perform c (.read arg) s).shadow = s.shadow := by
  obtain ⟨st, d, h⟩ | ⟨h, -⟩ | ⟨-, a, new, hst, -⟩ := perform_outcomes c (.read arg) s
  · rw [h]
    rfl
  · cases h
  · exact hst.elim

/-- A refused command leaves the whole table (R207). -/
theorem shadow_perform_of_refused {c : Cfg} {act : Action c.nRegs} {s : State c.nRegs}
    (hne : (perform c act s).rspStatus ≠ .ok) : (perform c act s).shadow = s.shadow := by
  obtain ⟨st, d, h⟩ | ⟨-, h⟩ | ⟨-, a, new, -, h⟩ := perform_outcomes c act s
  · rw [h]
    rfl
  · exact absurd (by rw [h, initAll_eq]) hne
  · exact absurd (by rw [h]; rfl) hne

/-- `init` writes every entry with its default (R115). -/
theorem readShadow_perform_init (c : Cfg) (s : State c.nRegs) (a : Fin c.nRegs) :
    (perform c .init s).readShadow a = c.defaults[a.val] := by
  rw [perform, initAll_eq]
  rfl

/-- No command but `init` touches the flag (R22). -/
theorem initialized_perform {c : Cfg} {act : Action c.nRegs} (s : State c.nRegs) (ha : act ≠ .init) :
    (perform c act s).initialized = s.initialized := by
  obtain ⟨st, d, h⟩ | ⟨hinit, -⟩ | ⟨-, a, new, -, h⟩ := perform_outcomes c act s
  · rw [h]
    rfl
  · exact absurd hinit ha
  · rw [h]
    rfl

/-- A whole command leaves the sequencer, the input list and the count of resets. -/
theorem perform_unchanged (c : Cfg) (act : Action c.nRegs) (s : State c.nRegs) :
    (perform c act s).seq = s.seq ∧ (perform c act s).inputs = s.inputs ∧ (perform c act s).resets = s.resets := by
  obtain ⟨st, d, h⟩ | ⟨-, h⟩ | ⟨-, a, new, -, h⟩ := perform_outcomes c act s <;> rw [h]
  · exact ⟨rfl, rfl, rfl⟩
  · rw [initAll_eq]
    exact ⟨rfl, rfl, rfl⟩
  · exact ⟨rfl, rfl, rfl⟩

/-- Settles O24: each clause is the frame of the command's class. -/
theorem commandWritesAtMostOneEntry : Obligations.CommandWritesAtMostOneEntry := by
  intro i s
  refine ⟨perform cfg (actionOf cfg i) s, exec_eq_perform i s, ?_, ?_, ?_, shadow_perform_of_refused, ?_,
    initialized_perform (c := cfg) s, perform_unchanged cfg (actionOf cfg i) s⟩
  · intro fd v hact b hb
    rw [hact]
    exact readShadow_perform_of_not_stored (by simp) (by rintro a new ⟨rfl, -⟩; exact hb)
  · intro a w hact
    refine ⟨(power_of_actionOf_full hact).1, fun b hb => ?_⟩
    rw [hact]
    exact readShadow_perform_of_not_stored (by simp) (by rintro b' new ⟨rfl, -⟩; exact hb)
  · intro arg hact
    rw [hact]
    exact shadow_perform_read cfg arg s
  · intro hact a
    rw [hact]
    exact readShadow_perform_init cfg s a

/-- A word that selects a command has the command's `op` (R72, R73). -/
theorem opcode_of_decode {w : CmdWord} {i : Instr} (hd : decode w = .ok i) : i.opcode = opField w := by
  unfold decode at hd
  split at hd <;> rename_i hop <;> cases hd <;> exact BitVec.eq_of_toNat_eq hop.symm

/-- A whole command keeps the flag, or it is `init` and sets it (R22). -/
theorem execute_initialized (c : Cfg) (w : CmdWord) (s : State c.nRegs) :
    (execute c w s).initialized = s.initialized ∨ (opField w = 0x01 ∧ (execute c w s).initialized = true) := by
  obtain ⟨st, d, h⟩ | ⟨i, hd, hact, h⟩ | ⟨-, i, a, new, -, h⟩ := execute_outcomes c w s
  · exact .inl (by rw [h]; rfl)
  · obtain ⟨arg, rfl⟩ := eq_init_of_actionOf hact
    exact .inr ⟨(opcode_of_decode hd).symm, by rw [h, initAll_eq]⟩
  · exact .inl (by rw [h]; rfl)

/-- An accepting edge keeps the flag: `init` sets it when its last frame ends (R122). -/
theorem accept_initialized (c : Cfg) (w : CmdWord) (s : State c.nRegs) :
    (accept c w s).initialized = s.initialized := by
  obtain ⟨st, d, h⟩ | h | ⟨-, i, a, new, -, h⟩ := accept_outcomes c w s <;> rw [h] <;> rfl

/-- An edge of the transmitter keeps the flag, or it ends `init` and sets it (R122). -/
theorem txEdge_initialized {n : Nat} (delay : Nat) (s : State n) :
    (txEdge delay s).initialized = s.initialized ∨ (s.isInit = true ∧ (txEdge delay s).initialized = true) := by
  rw [txEdge, ← txEvent_initialized s, ← txEvent_isInit s]
  generalize txEvent s = u
  obtain ⟨-, h⟩ | ⟨-, hk, h⟩ | ⟨-, -, h⟩ := txCount_cases delay u
  · exact .inl (by rw [h])
  · exact .inl (by rw [h])
  · rw [h]
    obtain ⟨-, hlt, hf⟩ | ⟨hi, -, hf⟩ | ⟨-, hf⟩ := frameDone_cases { u with txCnt := 0 }
    · exact .inl (by rw [hf]; rfl)
    · exact .inr ⟨hi, by rw [hf]; rfl⟩
    · exact .inl (by rw [hf]; rfl)

/-- A clock edge keeps the flag, or resets the core, or ends `init` and sets the flag (R22, R122). -/
theorem edge_initialized (c : Cfg) (p : PortIn) (s : State c.nRegs) :
    (p.rst = true ∧ (edge c p s).initialized = false) ∨ (edge c p s).initialized = s.initialized ∨
    ((s.seq = .busy ∧ s.isInit = true) ∧ (edge c p s).initialized = true) := by
  obtain ⟨hr, h⟩ | ⟨-, -, h⟩ | ⟨-, -, h⟩ | ⟨-, hs, h⟩ := edge_cases c p s
  · exact .inl ⟨hr, by rw [h, resetEdge_initialized]⟩
  · exact .inr (.inl (by rw [h]))
  · exact .inr (.inl (by rw [h, accept_initialized]))
  · rw [h]
    obtain ht | ⟨hi, ht⟩ := txEdge_initialized c.delay { s with rspValid := false }
    · exact .inr (.inl ht)
    · exact .inr (.inr ⟨⟨hs, hi⟩, ht⟩)

section Flag

-- The two rules of R22 for a step that takes the flag from `before` to `after`.
variable {before after : Bool} {setter clearer : Prop}

theorem flag_rules_of_kept (h : after = before) :
    (before = false → after = true → setter) ∧ (before = true → after = false → clearer) :=
  ⟨fun h0 h1 => absurd (h0.symm.trans (h.symm.trans h1)) (by decide),
    fun h1 h0 => absurd (h1.symm.trans (h.symm.trans h0)) (by decide)⟩

theorem flag_rules_of_set (h : after = true) (hset : setter) :
    (before = false → after = true → setter) ∧ (before = true → after = false → clearer) :=
  ⟨fun _ _ => hset, fun _ h0 => absurd (h.symm.trans h0) (by decide)⟩

theorem flag_rules_of_cleared (h : after = false) (hclear : clearer) :
    (before = false → after = true → setter) ∧ (before = true → after = false → clearer) :=
  ⟨fun _ h1 => absurd (h.symm.trans h1) (by decide), fun _ _ => hclear⟩

end Flag

/-- Settles O26: of the three kinds of step, a whole command may set the flag and only for `init`, and an edge may set it only
in `init` and clear it only by reset. -/
theorem initializedChangesOnlyByInitAndReset : Obligations.InitializedChangesOnlyByInitAndReset := by
  intro s t hstep
  obtain ⟨w, rest, hin, hs, rfl⟩ | ⟨p, rest, hin, rfl⟩ | ⟨p, hr, rfl⟩ := step_next_cases hstep
  · obtain hkeep | ⟨hop, hset⟩ := execute_initialized cfg w { s with inputs := rest }
    · exact flag_rules_of_kept hkeep
    · exact flag_rules_of_set hset (.inl ⟨w, rest, hin, hs, hop⟩)
  · obtain ⟨hr, hclear⟩ | hkeep | ⟨hinit, hset⟩ := edge_initialized cfg p { s with inputs := rest }
    · exact flag_rules_of_cleared hclear ⟨p, rest, hin, hr⟩
    · exact flag_rules_of_kept hkeep
    · exact flag_rules_of_set hset (.inr hinit)
  · obtain ⟨hrst, -⟩ | hkeep | ⟨hinit, hset⟩ := edge_initialized cfg p s
    · exact absurd (hr.symm.trans hrst) (by decide)
    · exact flag_rules_of_kept hkeep
    · exact flag_rules_of_set hset (.inr hinit)

end Sys2Proof.Machine
end

section
/-!
PROOFS. The ports (spec 10_state.md R41, R42), the values after reset (R47) and the table `FIELDS` (R27).
-/

namespace Sys2Proof.Machine

variable {n : Nat}

/-- From `s` to `t` one response was issued, which the port shows, or none, and then the port is silent and holds its values
(R42). -/
def State.AnswersOrHolds (s t : State n) : Prop :=
  (t.rspValid = true ∧ t.responses = s.responses ++ [⟨t.rspStatus, t.rspData⟩]) ∨
  (t.rspValid = false ∧ t.responses = s.responses ∧ t.rspStatus = s.rspStatus ∧ t.rspData = s.rspData)

/-- The end of a frame answers, or starts the next frame of `init` (R122). -/
theorem frameDone_answersOrHolds {s : State n} (hv : s.rspValid = false) : s.AnswersOrHolds (frameDone s) := by
  obtain ⟨-, hlt, h⟩ | ⟨-, -, h⟩ | ⟨-, h⟩ := frameDone_cases s <;> rw [h]
  · exact .inr ⟨hv, rfl, rfl, rfl⟩
  · exact .inl ⟨rfl, rfl⟩
  · exact .inl ⟨rfl, rfl⟩

/-- An edge of the transmitter answers only at the end of a frame (R99, R122). -/
theorem txCount_answersOrHolds (delay : Nat) {s : State n} (hv : s.rspValid = false) :
    s.AnswersOrHolds (txCount delay s) := by
  obtain ⟨-, h⟩ | ⟨-, hk, h⟩ | ⟨-, -, h⟩ := txCount_cases delay s <;> rw [h]
  · exact .inr ⟨hv, rfl, rfl, rfl⟩
  · exact .inr ⟨hv, rfl, rfl, rfl⟩
  · exact frameDone_answersOrHolds (s := { s with txCnt := 0 }) hv

/-- The event part of an edge does not touch the response port (R99). -/
theorem txEdge_answersOrHolds (delay : Nat) {s : State n} (hv : s.rspValid = false) :
    s.AnswersOrHolds (txEdge delay s) := by
  have h := txCount_answersOrHolds delay ((txEvent_rspValid s).trans hv)
  simpa [State.AnswersOrHolds, txEdge] using h

/-- An accepting edge answers at once, or starts a frame (R122). -/
theorem accept_answersOrHolds (c : Cfg) (w : CmdWord) {s : State c.nRegs} (hv : s.rspValid = false) :
    s.AnswersOrHolds (accept c w s) := by
  obtain ⟨st, d, h⟩ | h | ⟨-, i, a, new, -, h⟩ := accept_outcomes c w s <;> rw [h]
  · exact .inl ⟨rfl, rfl⟩
  · exact .inr ⟨hv, rfl, rfl, rfl⟩
  · exact .inr ⟨hv, rfl, rfl, rfl⟩

/-- Settles O51: every edge without reset first ends the previous response's cycle. -/
theorem responsePortShowsEachResponseForOneCycle : Obligations.ResponsePortShowsEachResponseForOneCycle := by
  intro c p s _ hr
  show s.AnswersOrHolds (edge c p s)
  obtain ⟨hrst, -⟩ | ⟨-, -, h⟩ | ⟨-, -, h⟩ | ⟨-, -, h⟩ := edge_cases c p s
  · simp [hr] at hrst
  · rw [h]
    exact .inr ⟨rfl, rfl, rfl, rfl⟩
  · rw [h]
    exact accept_answersOrHolds c p.cmdWord (s := { s with rspValid := false }) rfl
  · rw [h]
    exact txEdge_answersOrHolds c.delay (s := { s with rspValid := false }) rfl

theorem cmdReady_eq_true_iff (s : State n) : s.cmdReady = true ↔ s.seq = .ready := beq_iff_eq

/-- `cmd_ready` is 0 exactly while busy (R41, R45). -/
theorem cmdReady_eq_false_iff (s : State n) : s.cmdReady = false ↔ s.seq = .busy := by
  unfold State.cmdReady
  cases s.seq <;> decide

/-- Settles O39: at a busy edge the core looks at `rst` only. -/
theorem busyCoreIgnoresTheCommandPort : Obligations.BusyCoreIgnoresTheCommandPort := by
  intro c s _
  refine ⟨cmdReady_eq_true_iff s, fun hready p q hpq => ?_⟩
  have hs : s.seq = .busy := (cmdReady_eq_false_iff s).1 hready
  cases hp : p.rst with
  | true => rw [edge_reset c p s hp, edge_reset c q s (hpq ▸ hp)]
  | false => rw [edge_busy c p s hp hs, edge_busy c q s (hpq ▸ hp) hs]

/-- Settles O31: well-formedness does not look at the delays, and its table is finite. -/
theorem instanceIsWellFormed : Obligations.InstanceIsWellFormed :=
  ⟨instanceCfg_wf, fieldTable_ends_by_nine, by decide, by decide⟩

/-- Settles O36: the values are those that `State.atReset` gives. -/
theorem resetStateHasTheValuesOfTheTable : Obligations.ResetStateHasTheValuesOfTheTable :=
  ⟨rfl, rfl, rfl, rfl, rfl, rfl, rfl, rfl, rfl, rfl, rfl⟩

end Sys2Proof.Machine
end

section
/-!
PROOFS. What a command sends (spec 20_memory.md R59, R63) and what a listener on the lines reads off it (40_transmitter.md
R97). The frames of a command are a function of its class; the operation appends their events, and a listener that starts at
rest reads off each whole frame, by induction over the bits and then over the frames.
-/

namespace Sys2Proof.Machine

variable {n : Nat}

-- The frames of a command, and what they carry.

/-- The frames that a command of a class sends when run from `s` (R110 to R112, R115). -/
def Action.sent (c : Cfg) (s : State c.nRegs) : Action c.nRegs → List Frame
  | .init        => (allRegs c.nRegs).map fun a => frameOf a c.defaults[a.val]
  | .read _      => []
  | .masked fd v => if s.initialized then [frameOf fd.reg (mergeField fd (s.readShadow fd.reg) v)] else []
  | .full a w    => if s.initialized then [frameOf a w] else []

/-- Before `init` no other command sends anything (R202). -/
theorem sent_uninitialized {c : Cfg} {act : Action c.nRegs} {s : State c.nRegs} (ha : act ≠ .init)
    (hi : s.initialized = false) : act.sent c s = [] := by
  cases act with
  | init => exact absurd rfl ha
  | read arg => rfl
  | masked fd v => simp [Action.sent, hi]
  | full a w => simp [Action.sent, hi]

/-- A class of command sends nothing and only answers, or is `init`, or sends the one entry it stores (R110). -/
theorem perform_sent_cases (c : Cfg) (act : Action c.nRegs) (s : State c.nRegs) :
    (act.sent c s = [] ∧ ∃ st d, perform c act s = s.afterAnswer st d) ∨
    (act = .init ∧ perform c act s = initAll c s) ∨
    (∃ a new, act.sent c s = [frameOf a new] ∧ perform c act s = s.afterWrite a new) := by
  obtain ⟨rfl, h⟩ | ⟨ha, hi, h⟩ | ⟨-, arg, rfl, h⟩ | ⟨hi, fd, v, rfl, h⟩ | ⟨hi, a, w, rfl, h⟩ := perform_cases c act s
  · exact .inr (.inl ⟨rfl, h⟩)
  · exact .inl ⟨sent_uninitialized ha hi, _, _, h⟩
  · obtain ⟨st, d, hr, -⟩ := readRegister_answers arg s
    exact .inl ⟨rfl, st, d, h.trans hr⟩
  · exact .inr (.inr ⟨_, _, if_pos hi, h⟩)
  · exact .inr (.inr ⟨_, _, if_pos hi, h⟩)

/-- A command appends the events of its frames and no other event (R116). -/
theorem perform_trace (c : Cfg) (act : Action c.nRegs) (s : State c.nRegs) :
    (perform c act s).trace = s.trace ++ (act.sent c s).flatMap frameTrace := by
  obtain ⟨hsent, st, d, h⟩ | ⟨rfl, h⟩ | ⟨a, new, hsent, h⟩ := perform_sent_cases c act s
  · rw [h, hsent]
    exact (List.append_nil _).symm
  · rw [h, initAll_eq, Action.sent, List.flatMap_map]
  · rw [h, hsent, List.flatMap_singleton]
    rfl

@[simp] theorem readShadow_afterWrite_self (s : State n) (a : Fin n) (new : Word) :
    (s.afterWrite a new).readShadow a = new :=
  readShadow_writeShadow_self s a new

theorem readShadow_afterWrite_of_ne (s : State n) (a b : Fin n) (new : Word) (h : a ≠ b) :
    (s.afterWrite a new).readShadow b = s.readShadow b :=
  readShadow_writeShadow_of_ne s a b new h

@[simp] theorem readShadow_initAll (c : Cfg) (s : State c.nRegs) (a : Fin c.nRegs) :
    (initAll c s).readShadow a = c.defaults[a.val] :=
  readShadow_perform_init c s a

/-- Each frame of a command carries an entry as it is stored after the command (R59). -/
theorem sent_is_stored {c : Cfg} {act : Action c.nRegs} {s : State c.nRegs} {f : Frame} (hf : f ∈ act.sent c s) :
    ∃ a, f = frameOf a ((perform c act s).readShadow a) := by
  obtain ⟨hsent, -⟩ | ⟨rfl, h⟩ | ⟨a, new, hsent, h⟩ := perform_sent_cases c act s
  · rw [hsent] at hf
    cases hf
  · obtain ⟨a, -, rfl⟩ := List.mem_map.1 hf
    exact ⟨a, by rw [h, readShadow_initAll]⟩
  · rw [hsent, List.mem_singleton] at hf
    exact ⟨a, by rw [h, readShadow_afterWrite_self, hf]⟩

/-- An entry that a command changes is among those it sends (R59). -/
theorem changed_is_sent {c : Cfg} {act : Action c.nRegs} {s : State c.nRegs} {b : Fin c.nRegs}
    (hb : (perform c act s).readShadow b ≠ s.readShadow b) :
    frameOf b ((perform c act s).readShadow b) ∈ act.sent c s := by
  obtain ⟨-, st, d, h⟩ | ⟨rfl, h⟩ | ⟨a, new, hsent, h⟩ := perform_sent_cases c act s
  · exact absurd (by rw [h]; rfl) hb
  · rw [h, readShadow_initAll]
    exact List.mem_map_of_mem (List.mem_finRange b)
  · rw [h] at hb ⊢
    have hab : a = b := by
      by_contra hne
      exact hb (readShadow_afterWrite_of_ne s a b new hne)
    rw [hsent, ← hab, readShadow_afterWrite_self]
    exact List.mem_singleton.2 rfl

/-- Settles O25: the list of frames is that of the command's class. -/
theorem changedEntriesAreSent : Obligations.ChangedEntriesAreSent := by
  intro i s t ht
  rw [exec_eq_perform] at ht
  cases ht
  exact ⟨(actionOf cfg i).sent cfg s, perform_trace cfg _ s, fun _ hf => sent_is_stored hf, fun _ hb => changed_is_sent hb⟩

-- The listener, over one event, one bit, one frame, many frames.

/-- A listener sees the lines as the events set them. -/
theorem Listener.hear_lines (l : Listener) (e : LineEvent) : (l.hear e).lines = e.apply l.lines := by
  cases e with
  | cs b => cases b <;> rfl
  | sclk b =>
    cases b with
    | false => rfl
    | true =>
      unfold Listener.hear
      dsimp only
      split <;> rfl
  | sdat b => rfl
  | reset => rfl

theorem foldl_hear_lines (es : List LineEvent) (l : Listener) :
    (es.foldl Listener.hear l).lines = es.foldl (fun x e => e.apply x) l.lines := by
  induction es generalizing l with
  | nil => rfl
  | cons e es ih => rw [List.foldl_cons, List.foldl_cons, ih, Listener.hear_lines]

/-- A listener to all events so far sees the lines as they stand (R43). -/
theorem listener_lines (es : List LineEvent) : (es.foldl Listener.hear Listener.start).lines = replay es :=
  foldl_hear_lines es Listener.start

/-- With `CS` and `SCLK` low, the three events of bit `j` are one pulse, at which the listener samples the bit (R97). -/
theorem foldl_hear_bitEvents (f : Frame) (j : Nat) (d : Bool) (p : Nat) (b : Frame) (fs : List Frame) :
    (bitEvents f j).foldl Listener.hear ⟨⟨false, false, d⟩, p, b, fs⟩ =
      ⟨⟨false, false, frameBit f j⟩, p + 1, (b <<< 1) ||| (BitVec.ofBool (frameBit f j)).setWidth 16, fs⟩ := rfl

/-- The first `k + 1` bits of a frame are its first `k` bits and then bit `k` (R95). -/
theorem firstBits_succ (f : Frame) (k : Nat) (hk : k < 16) :
    ((f >>> (16 - k)) <<< 1) ||| (BitVec.ofBool (frameBit f k)).setWidth 16 = f >>> (15 - k) := by
  apply BitVec.eq_of_getLsbD_eq
  intro i hi
  cases i with
  | zero => simp [frameBit]
  | succ i =>
    have hidx : 16 - k + i = 15 - k + (i + 1) := by omega
    simp [hi, hidx]

/-- After `k + 1` bits the listener has counted `k + 1` pulses and holds the frame's first `k + 1` bits (R97). -/
theorem foldl_hear_bits (f : Frame) (k : Nat) (hk : k < 16) (d : Bool) (fs : List Frame) :
    ((List.range (k + 1)).flatMap (bitEvents f)).foldl Listener.hear ⟨⟨false, false, d⟩, 0, 0, fs⟩ =
      ⟨⟨false, false, frameBit f k⟩, k + 1, f >>> (15 - k), fs⟩ := by
  induction k with
  | zero =>
    have hnone : f >>> 16 = 0 := BitVec.ushiftRight_eq_zero (Nat.le_refl 16)
    have hfirst := firstBits_succ f 0 hk
    rw [Nat.sub_zero, hnone] at hfirst
    rw [← hfirst]
    rfl
  | succ k ih =>
    have hsub : 15 - k = 16 - (k + 1) := by omega
    rw [List.range_succ, List.flatMap_append, List.foldl_append, ih (by omega), List.flatMap_singleton,
      foldl_hear_bitEvents, hsub, firstBits_succ f (k + 1) hk]

/-- A listener at rest hears a transaction as 16 pulses and one frame, the frame itself (R97). -/
theorem foldl_hear_frameTrace (l : Listener) (f : Frame) (hl : l.lines.atRest) :
    (frameTrace f).foldl Listener.hear l = ⟨⟨true, false, f.getLsbD 0⟩, 16, f, l.frames ++ [f]⟩ := by
  obtain ⟨⟨cs, sclk, sdat⟩, p, b, fs⟩ := l
  obtain ⟨rfl, rfl⟩ : cs = true ∧ sclk = false := hl
  have hbits := foldl_hear_bits f 15 (by omega) sdat fs
  rw [Nat.sub_self, BitVec.ushiftRight_zero] at hbits
  have hselect : Listener.hear ⟨⟨true, false, sdat⟩, p, b, fs⟩ (.cs false) = ⟨⟨false, false, sdat⟩, 0, 0, fs⟩ := rfl
  simp only [frameTrace, List.foldl_append, List.foldl_cons, hselect, hbits]
  rfl

/-- A listener at rest reads off exactly the frames of a list of transactions, in order, and is at rest after them (R97). -/
theorem foldl_hear_frames (fs : List Frame) (l : Listener) (hl : l.lines.atRest) :
    ((fs.flatMap frameTrace).foldl Listener.hear l).lines.atRest ∧
    ((fs.flatMap frameTrace).foldl Listener.hear l).frames = l.frames ++ fs := by
  induction fs generalizing l with
  | nil => exact ⟨hl, (List.append_nil _).symm⟩
  | cons f fs ih =>
    rw [List.flatMap_cons, List.foldl_append, foldl_hear_frameTrace l f hl]
    obtain ⟨hrest, hframes⟩ := ih ⟨⟨true, false, f.getLsbD 0⟩, 16, f, l.frames ++ [f]⟩ ⟨rfl, rfl⟩
    exact ⟨hrest, by rw [hframes, List.append_assoc, List.singleton_append]⟩

/-- From rest, whole transactions add their frames to those heard and leave the lines at rest (R96, R97). -/
theorem framesSent_append_frames (es : List LineEvent) (fs : List Frame) (h : (replay es).atRest) :
    (replay (es ++ fs.flatMap frameTrace)).atRest ∧
    framesSent (es ++ fs.flatMap frameTrace) = framesSent es ++ fs := by
  rw [← listener_lines] at h ⊢
  rw [framesSent, List.foldl_append]
  exact foldl_hear_frames fs _ h

-- What each class of command sends.

/-- A command that is not answered `OK` sends nothing (R207). -/
theorem sent_of_refused {c : Cfg} {act : Action c.nRegs} {s : State c.nRegs}
    (hne : (perform c act s).rspStatus ≠ .ok) : act.sent c s = [] := by
  obtain ⟨hsent, -⟩ | ⟨-, h⟩ | ⟨a, new, -, h⟩ := perform_sent_cases c act s
  · exact hsent
  · exact absurd (by rw [h, initAll_eq]) hne
  · exact absurd (by rw [h]; rfl) hne

/-- A masked write sends its register as stored (R111). -/
theorem sent_masked (c : Cfg) (fd : FieldDescriptor c.nRegs) (v : Word) (s : State c.nRegs) (hi : s.initialized = true) :
    (Action.masked fd v).sent c s = [frameOf fd.reg ((perform c (.masked fd v) s).readShadow fd.reg)] := by
  rw [perform, whenInitialized_true s _ hi, maskedWrite_eq, readShadow_afterWrite_self]
  exact if_pos hi

/-- Settles O35: the events a command appends are its frames', and a listener at rest reads those frames off them. -/
theorem commandsAreHeardAsTheirFrames : Obligations.CommandsAreHeardAsTheirFrames := by
  intro i s t ht hrest
  rw [exec_eq_perform] at ht
  cases ht
  rw [perform_trace cfg (actionOf cfg i) s]
  obtain ⟨hrest', hheard⟩ := framesSent_append_frames s.trace ((actionOf cfg i).sent cfg s) hrest
  refine ⟨hrest', _, hheard, ?init, ?masked, ?full, sent_of_refused, ?read⟩
  case init =>
    intro hact
    rw [hact]
    rfl
  case masked =>
    intro fd v hact hi
    rw [hact]
    exact sent_masked cfg fd v s hi
  case full =>
    intro a w hact hi
    rw [hact]
    exact if_pos hi
  case read =>
    intro arg hact
    rw [hact]
    rfl

end Sys2Proof.Machine
end

section
/-!
PROOFS. The encoding (spec 30_encoding.md R70 to R78). A word decodes to a command exactly when it is the command's word, and
is rejected exactly when its `op` is reserved; the rows of R73 are told apart by `op` and by mnemonic, which is read off the
table of written forms; a frame is put together from an address and a register word.
-/

namespace Sys2Proof.Machine

-- The decoder and the encoder.

/-- A word that selects a command has the command's operand (R71). -/
theorem arg_of_decode {w : CmdWord} {i : Instr} (hd : decode w = .ok i) : i.arg = argField w := by
  unfold decode at hd
  split at hd <;> cases hd <;> rfl

/-- A word with a command's `op` and operand in its fields selects that command (R72, R73). -/
theorem decode_of_fields {w : CmdWord} {i : Instr} (hop : opField w = i.opcode) (harg : argField w = i.arg) :
    decode w = .ok i := by
  unfold decode
  rw [hop, harg]
  cases i <;> rfl

/-- The decoder inverts the encoder, and nothing but a command's own word selects it (R70, R73). -/
theorem decode_eq_ok_iff {w : CmdWord} {i : Instr} : decode w = .ok i ↔ w = encode i := by
  constructor
  · intro hd
    rw [encode, opcode_of_decode hd, arg_of_decode hd, append_fields]
  · rintro rfl
    exact decode_of_fields (opField_append i.opcode i.arg) (argField_append i.opcode i.arg)

/-- Settles O1: a command's word is the command's word, so it decodes to the command. -/
theorem decodeOfEncodeIsTheCommand : Obligations.DecodeOfEncodeIsTheCommand :=
  fun _ => decode_eq_ok_iff.2 rfl

/-- Settles O2, the other direction of `decode_eq_ok_iff`. -/
theorem encodeOfDecodeIsTheWord : Obligations.EncodeOfDecodeIsTheWord :=
  fun _ _ hd => (decode_eq_ok_iff.1 hd).symm

/-- Settles O5: each word is the word of the command it is said to stand for. -/
theorem sampleWordsDecode : Obligations.SampleWordsDecode :=
  ⟨decode_eq_ok_iff.2 rfl, decode_eq_ok_iff.2 rfl, decode_eq_ok_iff.2 rfl, decode_eq_ok_iff.2 rfl,
    decode_eq_ok_iff.2 rfl, decode_eq_ok_iff.2 rfl, decode_eq_ok_iff.2 rfl, decode_eq_ok_iff.2 rfl,
    decode_eq_ok_iff.2 rfl, decode_eq_ok_iff.2 rfl⟩

-- The reserved words.

/-- No command's `op` is in the list of R74. -/
theorem reservedOp_opcode (i : Instr) : reservedOp i.opcode.toNat = false := by
  cases i <;> rfl

/-- A rejected word is rejected by its `op`, which is in the list of R74: the list has every value that R73 leaves out. -/
theorem reserved_of_decode {w : CmdWord} {e : DecodeError} (hd : decode w = .error e) :
    e = .reserved (opField w) ∧ reservedOp (opField w).toNat = true := by
  have hlt : (opField w).toNat < 256 := (opField w).isLt
  unfold decode at hd
  split at hd
  case h_39 =>
    cases hd
    simp only [imp_false, reservedOp, Bool.or_eq_true, Bool.and_eq_true, beq_iff_eq, decide_eq_true_eq, true_and] at *
    omega
  all_goals cases hd

/-- The decoder is total: a word selects a command or is rejected by its `op` (R72). -/
theorem decode_ok_or_reserved (w : CmdWord) :
    (∃ i, decode w = .ok i) ∨ decode w = .error (.reserved (opField w)) := by
  cases hd : decode w with
  | ok i => exact .inl ⟨i, rfl⟩
  | error e => rw [(reserved_of_decode hd).1]; exact .inr rfl

/-- A word is rejected exactly when its `op` is in the list of R74. -/
theorem decode_eq_error_iff (w : CmdWord) :
    decode w = .error (.reserved (opField w)) ↔ reservedOp (opField w).toNat = true := by
  refine ⟨fun hd => (reserved_of_decode hd).2, fun hres => (decode_ok_or_reserved w).resolve_left ?_⟩
  rintro ⟨i, hd⟩
  rw [← opcode_of_decode hd, reservedOp_opcode i] at hres
  cases hres

/-- Settles O4: the two words are rejected because their `op` is in the list. -/
theorem reservedOpcodesAreThoseListed : Obligations.ReservedOpcodesAreThoseListed :=
  ⟨decode_eq_error_iff, rfl, (decode_eq_error_iff 0x000000).2 rfl, (decode_eq_error_iff 0xFFFFFF).2 rfl⟩

-- The rows of the opcode map, as the table of written forms lists them.

/-- The row of a command is the one with its mnemonic (R73, R76). -/
theorem find_row_of_mnemonic (i : Instr) :
    mnemonicTable.find? (fun row => row.1 == i.mnemonic) = some (i.mnemonic, i.opcode, takesOperand i) := by
  cases i <;> rfl

/-- The row of a command is the one with its `op` (R72, R73). -/
theorem find_row_of_opcode (i : Instr) :
    mnemonicTable.find? (fun row => row.2.1 == i.opcode) = some (i.mnemonic, i.opcode, takesOperand i) := by
  cases i <;> rfl

/-- Two commands are of one row exactly when they have one `op`: each of the two finds the row (R72). -/
theorem mnemonic_eq_iff (i j : Instr) : i.mnemonic = j.mnemonic ↔ i.opcode = j.opcode := by
  constructor
  · intro h
    have hrow := find_row_of_mnemonic i
    rw [h, find_row_of_mnemonic j] at hrow
    exact (congrArg (·.2.1) (Option.some.inj hrow)).symm
  · intro h
    have hrow := find_row_of_opcode i
    rw [h, find_row_of_opcode j] at hrow
    exact (congrArg (·.1) (Option.some.inj hrow)).symm

/-- The bits of a word under the table's `mask` are a row's `match` exactly when its `op` is the row's (R72). -/
theorem masked_eq_iff (w : CmdWord) (op : Opcode) : w &&& 0xFF0000#24 = op.setWidth 24 <<< 16 ↔ opField w = op := by
  rw [masked_append (opField w) (argField w) w (append_fields w).symm]
  refine ⟨fun h => ?_, fun h => by rw [h]⟩
  bv_omega

/-- Settles O3: a word that has the `op` of a command is not rejected, and what it selects has that `op`. -/
theorem wordSelectsRowByMask : Obligations.WordSelectsRowByMask := by
  refine ⟨fun w j => ?_, decode_ok_or_reserved, fun i j => (mnemonic_eq_iff i j).2⟩
  rw [masked_eq_iff]
  constructor
  · rintro ⟨i, hd, hrow⟩
    rw [← opcode_of_decode hd, (mnemonic_eq_iff i j).1 hrow]
  · intro hop
    obtain ⟨i, hd⟩ | hd := decode_ok_or_reserved w
    · exact ⟨i, hd, (mnemonic_eq_iff i j).2 ((opcode_of_decode hd).trans hop)⟩
    · have hres := (decode_eq_error_iff w).1 hd
      rw [hop, reservedOp_opcode j] at hres
      cases hres

-- The written form of a command.

/-- `mnemonic()` of a command that ignores its operand (R76). -/
theorem assemble_without_operand {i : Instr} (h : takesOperand i = false) :
    assemble ⟨i.mnemonic, none⟩ = some (i.opcode ++ (0 : Word)) := by
  rw [assemble, find_row_of_mnemonic i, h]

/-- `mnemonic(operand)` of a command that takes one (R76). -/
theorem assemble_with_operand {i : Instr} {o : WrittenOperand} {v : Word} (h : takesOperand i = true)
    (hv : operandValue i.opcode o = some v) : assemble ⟨i.mnemonic, some o⟩ = some (i.opcode ++ v) := by
  simp [assemble, find_row_of_mnemonic i, h, hv]

/-- A written number of 16 bits stands for itself. -/
theorem operandValue_number (op : Opcode) (v : Word) : operandValue op (.number v.toNat) = some v := by
  have h16 : v.toNat < 2 ^ wordW := v.isLt
  rw [operandValue, if_pos h16, BitVec.ofNat_toNat, BitVec.setWidth_eq]

/-- The register names of R20 are different, so that a name has one address. -/
theorem registerNames_nodup : registerNames.Nodup := by decide

/-- In `read` the name of a register stands for its address (R76). -/
theorem operandValue_register (a : RegAddr) :
    operandValue 0x02 (.register registerNames[a.val]) = some (BitVec.ofNat 16 a.val) := by
  rw [operandValue, if_pos rfl, registerNames_nodup.idxOf_getElem, if_pos a.isLt]

/-- Settles O6: `read` takes its operand as a number or as the name of a register. -/
theorem writtenCommandsAssemble : Obligations.WrittenCommandsAssemble := by
  refine ⟨fun i h => ?_, fun i h => assemble_without_operand h, fun a => ?_⟩
  · exact assemble_with_operand h (operandValue_number i.opcode i.arg)
  · exact ⟨registerNames[a.val], List.getElem?_eq_getElem _,
      assemble_with_operand (i := .read (BitVec.ofNat 16 a.val)) rfl (operandValue_register a)⟩

-- The frame.

/-- The bits of a frame from bit 9 up are those of the address (R77). -/
theorem makeFrame_address (a : BusAddr) (d : BusWord) (k m : Nat) :
    (makeFrame a d).extractLsb' (9 + k) m = a.extractLsb' k m := by
  rw [makeFrame, BitVec.extractLsb'_append_eq_of_le (Nat.le_add_right 9 k), Nat.add_sub_cancel_left]

/-- Bits 8..0 of a frame are the register word (R77). -/
theorem makeFrame_data (a : BusAddr) (d : BusWord) : (makeFrame a d).extractLsb' 0 9 = d :=
  BitVec.extractLsb'_append_eq_right

/-- The address of a register that the bus can address is sent whole (R3, R91). -/
theorem busAddr_toNat {n : Nat} (hn : n ≤ 128) (a : Fin n) : (busAddr a).toNat = a.val :=
  Nat.mod_eq_of_lt (Nat.lt_of_lt_of_le a.isLt hn)

/-- The machine's ten addresses need four of the seven bits (R77). -/
theorem busAddr_four_bits (a : RegAddr) :
    (busAddr a).extractLsb' 4 3 = 0 ∧ (busAddr a).extractLsb' 0 4 = BitVec.ofNat 4 a.val := by
  revert a
  decide

/-- Settles O32: each clause reads one of the two parts of the frame, the address with the bound that well-formedness
gives. -/
theorem frameCarriesAddressThenData : Obligations.FrameCarriesAddressThenData := by
  refine ⟨fun c a w hwf => ?_, fun a w => ?_, rfl⟩
  · obtain ⟨-, hn, -⟩ := (Cfg_wf_iff c).1 hwf
    rw [frameOf]
    constructor
    · rw [makeFrame_address _ _ 0 7, BitVec.extractLsb'_eq_self, busAddr_toNat hn]
    · rw [makeFrame_data, busWord, BitVec.setWidth_eq_extractLsb' (by decide)]
  · obtain ⟨hhigh, hlow⟩ := busAddr_four_bits a
    exact ⟨(makeFrame_address _ _ 4 3).trans hhigh, (makeFrame_address _ _ 0 4).trans hlow⟩

end Sys2Proof.Machine
end

section
/-!
PROOFS. The transmitter (spec 40_transmitter.md R92 to R99): the events of a transaction by line and by step, what a listener
hears of them, and the edge at which each is performed. A frame's edges are counted as whole steps and a part of one: the
event of a step falls at its first edge, and the rest of the step is hold.
-/

namespace Sys2Proof.Machine

-- The events of a transaction, by line.

/-- A kind of event that occurs `m` times in each bit is counted 16 times `m` and once for each edge of `CS` of its kind
(R92). -/
theorem countP_frameTrace (p : LineEvent → Bool) (f : Frame) (m : Nat) (hbit : ∀ j, (bitEvents f j).countP p = m) :
    (frameTrace f).countP p = [LineEvent.cs false, .cs true].countP p + 16 * m := by
  have hbits : ((List.range 16).flatMap (bitEvents f)).countP p = 16 * m := by
    rw [List.countP_flatMap, show List.countP p ∘ bitEvents f = fun _ => m from funext hbit, List.map_const',
      List.sum_replicate, List.length_range, smul_eq_mul]
  simp only [frameTrace, List.countP_append, List.countP_cons, List.countP_nil, hbits]
  omega

/-- Settles O33: each bit has two events on `SCLK` and one on `SDAT`, and `CS` has its two around the bits. -/
theorem transactionHasFiftyEvents : Obligations.TransactionHasFiftyEvents := by
  refine fun f => ⟨frameTrace_length f, fun k => ?_, ?_, ?_, ?_⟩
  · simp [frameTrace_eq_map]
  · rw [← List.countP_eq_length_filter, countP_frameTrace _ f 0 fun j => rfl]
    rfl
  · rw [← List.countP_eq_length_filter, countP_frameTrace _ f 2 fun j => rfl]
    rfl
  · have hbit (j : Nat) : (bitEvents f j).countP (fun e => e == .sdat true || e == .sdat false) = 1 := by
      unfold bitEvents
      cases frameBit f j <;> rfl
    rw [← List.countP_eq_length_filter, countP_frameTrace _ f 1 hbit]
    rfl

-- The events of a transaction, by step.

/-- The three steps of bit `j` set the data line, raise the clock and lower it (R92, R99). -/
theorem lineEventAt_bit (f : Frame) {j : Nat} (hj : j < 16) :
    lineEventAt f (3 * j + 1) = .sdat (frameBit f j) ∧ lineEventAt f (3 * j + 2) = .sclk true ∧
    lineEventAt f (3 * j + 3) = .sclk false := by
  obtain ⟨hstep, hidx⟩ : (3 * j + 1 - 1) % 3 = 0 ∧ (3 * j + 1 - 1) / 3 = j := by omega
  have hrise : (3 * j + 2 - 1) % 3 = 1 := by omega
  have hfall : (3 * j + 3 - 1) % 3 = 2 := by omega
  refine ⟨?_, ?_, ?_⟩
  · rw [lineEventAt, if_neg (by omega), if_neg (by omega), hstep, hidx]
    rfl
  · rw [lineEventAt, if_neg (by omega), if_neg (by omega), hrise]
    rfl
  · rw [lineEventAt, if_neg (by omega), if_neg (by omega), hfall]
    rfl

/-- The events of steps 1 to 48 are not on `CS` (R92, R99). -/
theorem lineEventAt_keeps_cs (f : Frame) {k : Nat} (h1 : 1 ≤ k) (h48 : k ≤ 48) (l : Lines) :
    ((lineEventAt f k).apply l).cs = l.cs := by
  obtain ⟨hdata, hrise, hfall⟩ := lineEventAt_bit f (j := (k - 1) / 3) (by omega)
  obtain hk | hk | hk : k = 3 * ((k - 1) / 3) + 1 ∨ k = 3 * ((k - 1) / 3) + 2 ∨ k = 3 * ((k - 1) / 3) + 3 := by omega
  · rw [hk, hdata]
    rfl
  · rw [hk, hrise]
    rfl
  · rw [hk, hfall]
    rfl

/-- The levels after the first `k + 1` events of a frame: the event of step `k` on the levels before it (R99). -/
theorem replay_take_succ (f : Frame) {k : Nat} (hk : k < 50) :
    replay ((frameTrace f).take (k + 1)) = (lineEventAt f k).apply (replay ((frameTrace f).take k)) := by
  rw [frameTrace_take_succ f ⟨k, hk⟩, replay_append_event]

/-- `CS` is low after the first event and stays low through the last of the bits (R97). -/
theorem replay_take_cs (f : Frame) (k : Nat) (hk : k < 49) : (replay ((frameTrace f).take (k + 1))).cs = false := by
  induction k with
  | zero => rfl
  | succ k ih => rw [replay_take_succ f (by omega), lineEventAt_keeps_cs f (by omega) (by omega), ih (by omega)]

/-- `SDAT` holds bit `j` through the pulse of bit `j`: after its setting, after the rise and after the fall (R92, R97). -/
theorem replay_take_sdat (f : Frame) {j : Nat} (hj : j < 16) :
    (replay ((frameTrace f).take (3 * j + 2))).sdat = frameBit f j ∧
    (replay ((frameTrace f).take (3 * j + 3))).sdat = frameBit f j ∧
    (replay ((frameTrace f).take (3 * j + 4))).sdat = frameBit f j := by
  obtain ⟨hdata, hrise, hfall⟩ := lineEventAt_bit f hj
  have hset : (replay ((frameTrace f).take (3 * j + 2))).sdat = frameBit f j := by
    rw [replay_take_succ f (by omega), hdata]
    rfl
  have hhigh : (replay ((frameTrace f).take (3 * j + 3))).sdat = frameBit f j := by
    rw [replay_take_succ f (by omega), hrise]
    exact hset
  refine ⟨hset, hhigh, ?_⟩
  rw [replay_take_succ f (by omega), hfall]
  exact hhigh

/-- Settles O34: the listener's fold over the bits, and the levels event by event. -/
theorem listenerHearsTheFrame : Obligations.ListenerHearsTheFrame := by
  refine ⟨foldl_hear_frameTrace, fun f k h1 h49 => ?_, fun f j hj n h2 h4 => ?_⟩
  · obtain ⟨k, rfl⟩ := Nat.exists_eq_add_of_le' h1
    exact replay_take_cs f k h49
  · obtain ⟨hset, hhigh, hlow⟩ := replay_take_sdat f hj
    obtain rfl | rfl | rfl : n = 2 ∨ n = 3 ∨ n = 4 := by omega
    · exact hset
    · exact hhigh
    · exact hlow

-- The edges of a frame.

/-- The end of a frame performs no line event (R122). -/
@[simp] theorem frameDone_trace {n : Nat} (s : State n) : (frameDone s).trace = s.trace := by
  obtain ⟨-, _, he⟩ | ⟨-, -, he⟩ | ⟨-, he⟩ := frameDone_cases s
  · rw [he]
    rfl
  · rw [he]
    rfl
  · rw [he]
    rfl

/-- Before the last cycle of a step the counter part only counts (R99, R211). -/
theorem txCount_of_lt {n : Nat} (delay : Nat) (s : State n) (h : s.txCnt < delay) :
    txCount delay s = { s with txCnt := s.txCnt + 1 } := by
  rw [txCount, if_neg (Nat.ne_of_lt h), count_no_wrap delay s.txCnt h]

/-- When there is a hold, the first edge of a step performs its event and counts one cycle (R98, R99). -/
theorem edge_step_first (c : Cfg) (s : State c.nRegs) (hs : s.seq = .busy) (h0 : s.txCnt = 0) (hd : 0 < c.delay) :
    edge c idlePorts s = { emit (lineEventAt s.txFrame s.txStep.val) s with rspValid := false, txCnt := 1 } := by
  have hev : txEvent { s with rspValid := false } =
      emit (lineEventAt s.txFrame s.txStep.val) { s with rspValid := false } := if_pos h0
  rw [edge_idle_busy c s hs, txEdge, hev, txCount_of_lt c.delay _ (h0 ▸ hd)]
  simp [emit, h0]

/-- Inside a step, from its first edge to its last but one: the event of the step has been performed, and nothing else
(R98). -/
theorem idleEdges_within_step (c : Cfg) (j : Nat) (s : State c.nRegs) (hs : s.seq = .busy) (h0 : s.txCnt = 0)
    (hj : j + 1 ≤ c.delay) :
    idleEdges c (j + 1) s =
      { emit (lineEventAt s.txFrame s.txStep.val) s with rspValid := false, txCnt := j + 1 } := by
  have hle : 1 + j ≤ c.delay := by omega
  rw [idleEdges_succ, edge_step_first c s hs h0 (by omega), holdRun c j _ (by exact hs) rfl (by simp) (by exact hle)]
  simp [Nat.add_comm]

/-- After `k` whole steps of a loaded frame, `k < 50`: the core is at the first edge of step `k`, and the first `k` events
have been performed (R98). -/
theorem idleEdges_load_steps (c : Cfg) (a : Fin c.nRegs) (w : Word) (s : State c.nRegs) (k : Nat) (hk : k < 50) :
    let t := idleEdges c (k * (c.delay + 1)) (load a w s)
    t.seq = .busy ∧ t.txCnt = 0 ∧ t.txFrame = frameOf a w ∧ t.txStep.val = k ∧
      t.trace = s.trace ++ (frameTrace (frameOf a w)).take k := by
  have hevents : (List.range k).map (lineEventAt (frameOf a w)) = (frameTrace (frameOf a w)).take k := by
    rw [frameTrace_eq_map, ← List.map_take, List.take_range, Nat.min_eq_left hk.le]
  rw [stepsRun c (load a w s) rfl rfl rfl k hk, load_txFrame, hevents, emitAll_eq]
  exact ⟨rfl, rfl, rfl, rfl, rfl⟩

/-- Into step `k` of a loaded frame by `j + 1` edges, short of its end, the first `k + 1` events have been performed (R98). -/
theorem idleEdges_load_within_step (c : Cfg) (a : Fin c.nRegs) (w : Word) (s : State c.nRegs) (k j : Nat) (hk : k < 50)
    (hj : j + 1 ≤ c.delay) :
    (idleEdges c (k * (c.delay + 1) + (j + 1)) (load a w s)).trace =
      s.trace ++ (frameTrace (frameOf a w)).take (k + 1) := by
  obtain ⟨hs, h0, hframe, hstep, htrace⟩ := idleEdges_load_steps c a w s k hk
  rw [idleEdges_add, idleEdges_within_step c j _ hs h0 hj]
  show _ ++ [lineEventAt _ _] = _
  rw [htrace, hframe, hstep, frameTrace_take_succ _ ⟨k, hk⟩, List.append_assoc]

/-- A whole frame has performed all its events (R98). -/
theorem idleEdges_load_whole (c : Cfg) (a : Fin c.nRegs) (w : Word) (s : State c.nRegs) :
    (idleEdges c (50 * (c.delay + 1)) (load a w s)).trace = s.trace ++ frameTrace (frameOf a w) := by
  rw [idleEdges_load, frameDone_trace, transmit_eq]
  rfl

/-- Settles O40: the edges are `k` whole steps and `j` edges of the next, and the quotient counts the steps begun. -/
theorem frameEventsKeepTheSchedule : Obligations.FrameEventsKeepTheSchedule := by
  intro c a w s n _ hn
  obtain ⟨k, j, hj, rfl⟩ : ∃ k j, j ≤ c.delay ∧ n = k * (c.delay + 1) + j :=
    ⟨n / (c.delay + 1), n % (c.delay + 1), Nat.le_of_lt_succ (Nat.mod_lt _ (Nat.succ_pos _)),
      (Nat.div_add_mod' _ _).symm⟩
  have hbegun : (k * (c.delay + 1) + j + c.delay) / (c.delay + 1) = k + (j + c.delay) / (c.delay + 1) := by
    rw [Nat.add_assoc, Nat.mul_comm, Nat.mul_add_div (Nat.succ_pos _)]
  rw [hbegun]
  have hk : k ≤ 50 := Nat.le_of_mul_le_mul_right (Nat.le_trans (Nat.le_add_right _ _) hn) (Nat.succ_pos c.delay)
  cases j with
  | zero =>
    rw [Nat.zero_add, Nat.div_eq_of_lt (Nat.lt_succ_self _), Nat.add_zero, Nat.add_zero]
    obtain hlt | rfl := Nat.lt_or_eq_of_le hk
    · obtain ⟨-, -, -, -, htrace⟩ := idleEdges_load_steps c a w s k hlt
      exact htrace
    · rw [idleEdges_load_whole, List.take_of_length_le (frameTrace_length _).le]
  | succ j =>
    have hlt : k < 50 := by
      by_contra hge
      obtain rfl : k = 50 := by omega
      omega
    have hone : (j + 1 + c.delay) / (c.delay + 1) = 1 := by
      rw [Nat.div_eq_iff (Nat.succ_pos _)]
      omega
    rw [hone, idleEdges_load_within_step c a w s k j hlt hj]

end Sys2Proof.Machine
end

section
/-!
PROOFS. Runs of clock edges under any host (spec 41_model_core.md R116, R123, R124). A command's latency is a number of whole
frames, during which the core is busy and silent; once ready and left alone, the core only ends the response's cycle. So
every state of a run leads by itself to the state that the words accepted so far give, by induction over the edges.
-/

namespace Sys2Proof.Machine

variable {n : Nat}

-- A ready core left alone.

/-- A ready core to which nothing is presented ends the response's cycle and then stays as it is (R42). -/
theorem idleEdges_ready (c : Cfg) (k : Nat) (s : State c.nRegs) (hs : s.seq = .ready) :
    idleEdges c (k + 1) s = { s with rspValid := false } := by
  induction k generalizing s with
  | zero => exact edge_idle c idlePorts s rfl rfl hs
  | succ k ih =>
    rw [idleEdges_succ, edge_idle c idlePorts s rfl rfl hs]
    exact ih { s with rspValid := false } hs

theorem State.sameButValid_withValid (s : State n) (b : Bool) : s.SameButValid { s with rspValid := b } := rfl

/-- The valid bit of either state does not count. -/
theorem State.SameButValid.withValid {s t : State n} (h : s.SameButValid t) (b : Bool) :
    State.SameButValid { s with rspValid := b } t := h

theorem State.SameButValid.trans {s t u : State n} (hst : s.SameButValid t) (htu : t.SameButValid u) :
    s.SameButValid u := by
  rw [← hst] at htu
  exact htu

/-- A ready core to which nothing is presented stays in its state but for the valid bit (R42). -/
theorem sameButValid_idleEdges (c : Cfg) (k : Nat) (s : State c.nRegs) (hs : s.seq = .ready) :
    s.SameButValid (idleEdges c k s) := by
  cases k with
  | zero => exact s.sameButValid_withValid s.rspValid
  | succ k =>
    rw [idleEdges_ready c k s hs]
    exact s.sameButValid_withValid false

-- A whole command, at the operation level.

/-- A command does not look at the response port's valid bit (R42, R110). -/
theorem State.SameButValid.execute_eq {c : Cfg} {s t : State c.nRegs} (h : s.SameButValid t) (w : CmdWord) :
    execute c w s = execute c w t := by
  rw [← h]
  cases hd : decode w with
  | error e =>
    rw [execute_of_reserved hd, execute_of_reserved hd]
    rfl
  | ok i =>
    rw [execute_of_command hd, execute_of_command hd]
    exact (perform_rspValid c (actionOf c i) t.rspValid s).symm

/-- A whole command leaves the sequencer as it was, and its one response is the one on the port (R42). -/
theorem execute_answers (c : Cfg) (w : CmdWord) (s : State c.nRegs) :
    let t := execute c w s
    t.seq = s.seq ∧ t.rspValid = true ∧ t.responses = s.responses ++ [⟨t.rspStatus, t.rspData⟩] := by
  obtain ⟨st, d, h⟩ | ⟨i, -, -, h⟩ | ⟨-, i, a, new, -, h⟩ := execute_outcomes c w s <;> rw [h]
  · exact ⟨rfl, rfl, rfl⟩
  · rw [initAll_eq]
    exact ⟨rfl, rfl, rfl⟩
  · exact ⟨rfl, rfl, rfl⟩

-- Before the response.

/-- In `t` the core is busy and has answered nothing since `s`, and its flag is as in `s` (R44, R123). -/
structure State.BusySince (s t : State n) : Prop where
  busy       : t.seq = .busy
  silent     : t.rspValid = false
  unanswered : t.responses = s.responses
  flag       : t.initialized = s.initialized

/-- Only the responses and the flag of the earlier state count. -/
theorem State.BusySince.since {r s t : State n} (h : s.BusySince t) (hn : s.responses = r.responses)
    (hf : s.initialized = r.initialized) : r.BusySince t :=
  ⟨h.busy, h.silent, h.unanswered.trans hn, h.flag.trans hf⟩

/-- At every edge of a frame but its last the core is busy and silent (R98, R123). -/
theorem busySince_load (c : Cfg) (a : Fin c.nRegs) (w : Word) (s : State c.nRegs) (hv : s.rspValid = false) {m : Nat}
    (hm : m < 50 * (c.delay + 1)) : s.BusySince (idleEdges c m (load a w s)) := by
  have hj : m % (c.delay + 1) < c.delay + 1 := Nat.mod_lt _ (Nat.succ_pos _)
  have hk : m / (c.delay + 1) < 50 := (Nat.div_lt_iff_lt_mul (Nat.succ_pos _)).2 hm
  rw [← Nat.div_add_mod' m (c.delay + 1), idleEdges_add, stepsRun c (load a w s) rfl rfl rfl _ hk, emitAll_eq]
  generalize m % (c.delay + 1) = j at hj
  cases j with
  | zero => exact ⟨rfl, by simp [idleEdges, hv], rfl, rfl⟩
  | succ j =>
    rw [idleEdges_within_step c j _ rfl rfl (Nat.le_of_lt_succ hj)]
    exact ⟨rfl, rfl, rfl, rfl⟩

/-- A transaction of `init` answers nothing and does not touch the flag (R115). -/
theorem sendDefault_silent (c : Cfg) (s : State c.nRegs) (a : Fin c.nRegs) :
    (sendDefault c s a).responses = s.responses ∧ (sendDefault c s a).initialized = s.initialized := by
  rw [sendDefault, transmit_eq]
  exact ⟨rfl, rfl⟩

/-- During the frames of `init` from register `a` on, the core is busy and silent before the very last edge (R115, R123). -/
theorem busySince_initSending (c : Cfg) (as : List (Fin c.nRegs)) (a : Fin c.nRegs) (s : State c.nRegs) (h : s.InInit c)
    (has : (allRegs c.nRegs).drop a.val = a :: as) {m : Nat} (hm : m < (as.length + 1) * (50 * (c.delay + 1))) :
    s.BusySince (idleEdges c m (initSending c a s)) := by
  induction as generalizing a s m with
  | nil =>
    have hlt : m < 50 * (c.delay + 1) := by simpa using hm
    exact (busySince_load c a c.defaults[a.val] { s with initIdx := a } h.silent hlt).since rfl rfl
  | cons b bs ih =>
    obtain hlt | ⟨r, rfl⟩ := (Nat.lt_or_ge m (50 * (c.delay + 1))).imp_right Nat.exists_eq_add_of_le
    · exact (busySince_load c a c.defaults[a.val] { s with initIdx := a } h.silent hlt).since rfl rfl
    · obtain ⟨-, hdrop, -⟩ := allRegs_drop_eq_cons has
      obtain ⟨hb, -⟩ := allRegs_drop_eq_cons hdrop
      rw [← hb] at hdrop
      have hr : r < (bs.length + 1) * (50 * (c.delay + 1)) := by
        rw [List.length_cons, Nat.succ_mul (bs.length + 1)] at hm
        omega
      obtain ⟨hn, hf⟩ := sendDefault_silent c s a
      rw [idleEdges_add, idleEdges_initSending_next c a b s h hb]
      exact (ih b _ (h.sendDefault a) hdrop hr).since hn hf

/-- The registers in ascending order begin with register 0 (R63). -/
theorem allRegs_first (c : Cfg) :
    ∃ as, (allRegs c.nRegs).drop c.firstReg.val = c.firstReg :: as ∧ as.length + 1 = c.nRegs := by
  have hpos : 0 < (allRegs c.nRegs).length := by simpa [allRegs] using c.nRegs_pos
  have hcons : (allRegs c.nRegs).drop c.firstReg.val = c.firstReg :: (allRegs c.nRegs).drop 1 := by
    rw [Cfg.firstReg, List.drop_eq_getElem_cons hpos]
    simp [allRegs]
  obtain ⟨-, -, hlen⟩ := allRegs_drop_eq_cons hcons
  rw [Cfg.firstReg, Nat.zero_add, Nat.add_comm] at hlen
  exact ⟨_, hcons, hlen⟩

/-- A writing command that is not refused keeps the core busy and silent before the last edge of its frame (R122, R123). -/
theorem busySince_guarded_write (c : Cfg) (a : Fin c.nRegs) (new : Word) (s : State c.nRegs) (hv : s.rspValid = false)
    {m : Nat} (hm : m < if s.initialized then 1 * (50 * (c.delay + 1)) else 0) :
    s.BusySince (idleEdges c m (whenInitialized s (startWrite a new))) := by
  cases hi : s.initialized with
  | false => simp [hi] at hm
  | true =>
    rw [hi, if_pos rfl, Nat.one_mul] at hm
    rw [whenInitialized_true s _ hi, startWrite]
    have hframe := busySince_load c a new ({ s with isInit := false }.writeShadow a new) hv hm
    exact hframe.since rfl rfl

/-- Before its latency has passed, an accepted command keeps the core busy and silent (R123, R244). -/
theorem busySince_acceptAction (c : Cfg) (act : Action c.nRegs) (s : State c.nRegs) (hs : s.seq = .ready)
    (hv : s.rspValid = false) {m : Nat} (hm : m < act.latency c s.initialized) :
    s.BusySince (idleEdges c m (acceptAction c act s)) := by
  cases act with
  | init =>
    obtain ⟨as, has, hlen⟩ := allRegs_first c
    have hm' : m < (as.length + 1) * (50 * (c.delay + 1)) := by rwa [hlen]
    exact (busySince_initSending c as c.firstReg { s with shadow := c.defaults, isInit := true } ⟨rfl, rfl, hs, hv⟩ has
      hm').since rfl rfl
  | read arg => simp [Action.latency, Action.frames] at hm
  | masked fd v => exact busySince_guarded_write c fd.reg (mergeField fd (s.readShadow fd.reg) v) s hv hm
  | full a word => exact busySince_guarded_write c a word s hv hm

/-- Before its latency has passed, an accepted word keeps the core busy and silent (R123, R244). -/
theorem busySince_accept (c : Cfg) (w : CmdWord) (s : State c.nRegs) (hs : s.seq = .ready) {m : Nat}
    (hm : m < latency c w s) : s.BusySince (idleEdges c m (edge c (presenting w) s)) := by
  rw [edge_accept c (presenting w) s rfl rfl hs]
  show s.BusySince (idleEdges c m (accept c w _))
  cases hd : decode w with
  | error e =>
    rw [latency_of_reserved hd] at hm
    exact absurd hm (Nat.not_lt_zero m)
  | ok i =>
    rw [latency_of_command hd] at hm
    rw [accept_of_command hd]
    exact (busySince_acceptAction c (actionOf c i) { s with rspValid := false } hs rfl hm).since rfl rfl

/-- Settles O41: the frames before the response, then the refinement of the command, then a ready core left alone. -/
theorem coreIsBusyUntilTheResponse : Obligations.CoreIsBusyUntilTheResponse := by
  intro c w s hwf hs u r
  have hr : r = execute c w s := commandRunRefinesOperation c w s hwf hs
  obtain ⟨hseq, hvalid, hresp⟩ := execute_answers c w s
  rw [← hr] at hseq hvalid hresp
  refine ⟨fun m hm => ?_, hseq.trans hs, hvalid, hresp, fun m hm => ?_⟩
  · obtain ⟨hbusy, hsilent, hnone, hflag⟩ := busySince_accept c w s hs hm
    exact ⟨hbusy, hsilent, hnone, hflag⟩
  · obtain ⟨k, rfl⟩ := Nat.exists_eq_add_of_lt hm
    rw [Nat.add_assoc, idleEdges_add]
    exact idleEdges_ready c k r (hseq.trans hs)

-- Another delay.

/-- `Execute` does not look at the delay (R116). -/
theorem execute_withDelay (c : Cfg) (d : Nat) (w : CmdWord) (s : State c.nRegs) :
    execute { c with delay := d } w s = execute c w s := by
  cases hd : decode w with
  | error e => rw [execute_of_reserved hd, execute_of_reserved hd]
  | ok i =>
    rw [execute_of_command hd, execute_of_command hd]
    cases i <;> rfl

/-- Settles O44: under either delay the run ends as `Execute` does, which knows no delay. -/
theorem delayChangesOnlyTheTiming : Obligations.DelayChangesOnlyTheTiming := by
  intro c d w s hwf hs c'
  have hwf' : c'.wf = true := hwf
  calc idleEdges c (latency c w s) (edge c (presenting w) s)
      = execute c w s := commandRunRefinesOperation c w s hwf hs
    _ = execute c' w s := (execute_withDelay c d w s).symm
    _ = idleEdges c' (latency c' w s) (edge c' (presenting w) s) :=
        (commandRunRefinesOperation c' w s hwf' hs).symm

-- Any host.

/-- The longest latency is that of `init`, which sends every register (R123, R244). -/
theorem Action.latency_le (c : Cfg) (initialized : Bool) (act : Action c.nRegs) :
    act.latency c initialized ≤ c.nRegs * (50 * (c.delay + 1)) := by
  have hguarded : ∀ k ≤ c.nRegs,
      (if initialized then k * (50 * (c.delay + 1)) else 0) ≤ c.nRegs * (50 * (c.delay + 1)) := by
    intro k hk
    split
    · exact Nat.mul_le_mul_right _ hk
    · exact Nat.zero_le _
  cases act with
  | init => exact Nat.le_refl _
  | read arg => exact hguarded 0 (Nat.zero_le _)
  | masked fd v => exact hguarded 1 c.nRegs_pos
  | full a word => exact hguarded 1 c.nRegs_pos

theorem latency_le (c : Cfg) (w : CmdWord) (s : State c.nRegs) : latency c w s ≤ c.nRegs * (50 * (c.delay + 1)) := by
  cases hd : decode w with
  | error e => simp [latency_of_reserved hd]
  | ok i =>
    rw [latency_of_command hd]
    exact (actionOf c i).latency_le c s.initialized

/-- Left alone, the core comes from `t` to `READY` and to the state `u` of the operation level, within the edges of the
longest command (R123, R124). -/
def State.LeadsTo (c : Cfg) (t u : State c.nRegs) : Prop :=
  ∃ k, k ≤ c.nRegs * (50 * (c.delay + 1)) ∧ (idleEdges c k t).seq = .ready ∧ (idleEdges c k t).SameButValid u

/-- A ready core has already come there. -/
theorem State.LeadsTo.sameButValid {c : Cfg} {t u : State c.nRegs} (h : t.LeadsTo c u) (ht : t.seq = .ready) :
    t.SameButValid u := by
  obtain ⟨k, -, -, hsame⟩ := h
  exact (sameButValid_idleEdges c k t ht).trans hsame

theorem State.SameButValid.leadsTo {c : Cfg} {t u : State c.nRegs} (h : t.SameButValid u) (ht : t.seq = .ready) :
    t.LeadsTo c u :=
  ⟨0, Nat.zero_le _, ht, h⟩

/-- The edges after an accepting edge lead to what `Execute` gives (R123). -/
theorem leadsTo_execute (c : Cfg) (hwf : c.wf = true) (w : CmdWord) (t : State c.nRegs) (ht : t.seq = .ready) :
    (Machine.edge c (presenting w) t).LeadsTo c (execute c w t) := by
  have hrun := commandRunRefinesOperation c w t hwf ht
  obtain ⟨hseq, -, -⟩ := execute_answers c w t
  refine ⟨latency c w t, latency_le c w t, ?_, ?_⟩
  · rw [hrun]
    exact hseq.trans ht
  · rw [hrun]
    exact (execute c w t).sameButValid_withValid _

/-- One edge without reset leads on to the same state, or, when a word is accepted at it, to what `Execute` of that word
makes of it (R41, R122). -/
theorem State.LeadsTo.edge {c : Cfg} {t u : State c.nRegs} (h : t.LeadsTo c u) (hwf : c.wf = true) (p : PortIn)
    (hp : p.rst = false) : (Machine.edge c p t).LeadsTo c (executeAll c (acceptedWords c [p] t) u) := by
  obtain ht | ht := t.ready_or_busy
  · have hsame := h.sameButValid ht
    cases hv : p.cmdValid with
    | false =>
      rw [edge_idle c p t hp hv ht]
      simpa [acceptedWords, executeAll, hv] using (hsame.withValid false).leadsTo ht
    | true =>
      have hpres : Machine.edge c p t = Machine.edge c (presenting p.cmdWord) t := by
        rw [edge_accept c p t hp hv ht, edge_accept c (presenting p.cmdWord) t rfl rfl ht]
        rfl
      rw [hpres]
      simpa [acceptedWords, executeAll, hp, hv, ht, hsame.execute_eq p.cmdWord] using leadsTo_execute c hwf p.cmdWord t ht
  · obtain ⟨k, hk, hready, hsame⟩ := h
    cases k with
    | zero => simp [idleEdges, ht] at hready
    | succ k =>
      have hidle : Machine.edge c p t = Machine.edge c idlePorts t := by
        rw [edge_busy c p t hp ht, edge_busy c idlePorts t rfl ht]
      rw [hidle]
      simpa [acceptedWords, executeAll, ht] using ⟨k, Nat.le_of_succ_le hk, hready, hsame⟩

/-- The words accepted at the first edge come first. -/
theorem executeAll_acceptedWords_cons (c : Cfg) (p : PortIn) (ps : List PortIn) (t u : State c.nRegs) :
    executeAll c (acceptedWords c (p :: ps) t) u =
      executeAll c (acceptedWords c ps (edge c p t)) (executeAll c (acceptedWords c [p] t) u) := by
  simp [acceptedWords, executeAll, List.foldl_append]

/-- Every run without reset leads to the state of the words accepted in it (R124). -/
theorem State.LeadsTo.edges {c : Cfg} (hwf : c.wf = true) (ps : List PortIn) (hps : ∀ p ∈ ps, p.rst = false)
    {t u : State c.nRegs} (h : t.LeadsTo c u) :
    (Machine.edges c ps t).LeadsTo c (executeAll c (acceptedWords c ps t) u) := by
  induction ps generalizing t u with
  | nil => exact h
  | cons p ps ih =>
    obtain ⟨hp, hrest⟩ := List.forall_mem_cons.1 hps
    rw [executeAll_acceptedWords_cons]
    exact ih hrest (h.edge hwf p hp)

/-- Settles O43, by induction over the edges: a ready state leads to itself, and every edge keeps the run leading to the state
of the words accepted so far. -/
theorem anyHostRunRefinesOperationLevel : Obligations.AnyHostRunRefinesOperationLevel := by
  intro c ps s hwf hs hps t u
  have hstart : s.LeadsTo c s := (s.sameButValid_withValid s.rspValid).leadsTo hs
  have hrun : t.LeadsTo c u := hstart.edges hwf ps hps
  exact ⟨hrun.sameButValid, hrun⟩

end Sys2Proof.Machine
end

section
/-!
PROOFS. The arithmetic of the generic masked write (spec 41_model_core.md R113, R117 to R119), bit by bit.
-/

namespace Sys2Proof.Machine

variable {n : Nat}

/-- A well-formed field ends inside the word (R3). -/
theorem field_fits {fd : FieldDescriptor n} (h : fd.wf = true) : fd.shift + fd.width ≤ 16 := by
  simp only [FieldDescriptor.wf, Bool.and_eq_true, decide_eq_true_eq] at h
  obtain ⟨⟨-, hfits⟩, -⟩ := h
  exact hfits

/-- A field's bits are the low bits of the value inside the field and 0 elsewhere (R113). -/
theorem fieldBits_bit {fd : FieldDescriptor n} (h : fd.wf = true) (v : Word) {i : Nat} (hi : i < 16) :
    (fieldBits fd v).getLsbD i = (decide (fd.shift ≤ i ∧ i < fd.shift + fd.width) && v.getLsbD (i - fd.shift)) := by
  rw [fieldBits, BitVec.getLsbD_and, BitVec.getLsbD_shiftLeft, mask_bit fd h i hi]
  by_cases hin : fd.shift ≤ i ∧ i < fd.shift + fd.width
  · have hge : ¬ i < fd.shift := by omega
    simp [hin, hi, hge]
  · simp [hin]

/-- The field of a merged word is the low bits of the value (R119). -/
theorem mergeField_extract {fd : FieldDescriptor n} (h : fd.wf = true) (old v : Word) :
    (mergeField fd old v).extractLsb' fd.shift fd.width = v.extractLsb' 0 fd.width := by
  apply BitVec.eq_of_getLsbD_eq
  intro i hi
  have hfits := field_fits h
  rw [BitVec.getLsbD_extractLsb', BitVec.getLsbD_extractLsb', mergeField_bit fd h old v _ (by omega),
    if_pos (by omega), Nat.add_sub_cancel_left, Nat.zero_add]

/-- A merged word agrees with the old one outside the mask (R119). -/
theorem mergeField_outside (fd : FieldDescriptor n) (old v : Word) :
    mergeField fd old v &&& ~~~fd.mask = old &&& ~~~fd.mask := by
  apply BitVec.eq_of_getLsbD_eq
  intro i hi
  simp only [mergeField, fieldBits, BitVec.getLsbD_and, BitVec.getLsbD_or, BitVec.getLsbD_not]
  cases fd.mask.getLsbD i <;> simp

/-- Settles O27: inside the field and outside it. -/
theorem maskedWriteStoresLowBitsOnly : Obligations.MaskedWriteStoresLowBitsOnly :=
  fun _ fd h old v => ⟨mergeField_extract h old v, mergeField_outside fd old v⟩

/-- The field's bits are the low bits of the value, shifted into place (R113). -/
theorem fieldBits_eq_shift {fd : FieldDescriptor n} (h : fd.wf = true) (v : Word) :
    fieldBits fd v = (v.extractLsb' 0 fd.width).setWidth 16 <<< fd.shift := by
  apply BitVec.eq_of_getLsbD_eq
  intro i hi
  rw [fieldBits_bit h v hi, BitVec.getLsbD_shiftLeft, BitVec.getLsbD_setWidth, BitVec.getLsbD_extractLsb', Nat.zero_add]
  by_cases hge : fd.shift ≤ i
  · have hwidth : i - fd.shift < fd.width ↔ i < fd.shift + fd.width := by omega
    have hin : i - fd.shift < 16 := by omega
    simp [hge, hi, hwidth, hin]
  · simp [hge, Nat.lt_of_not_le hge]

/-- Computed in a wider word, the field's bits are the same: the mask cuts off what the wider shift keeps (R113 (a)). -/
theorem fieldBits_wider (fd : FieldDescriptor n) (v : Word) {m : Nat} (hm : 16 ≤ m) :
    (v.setWidth m <<< fd.shift) &&& fd.mask.setWidth m = (fieldBits fd v).setWidth m := by
  apply BitVec.eq_of_getLsbD_eq
  intro i hi
  rw [BitVec.getLsbD_and, BitVec.getLsbD_shiftLeft, BitVec.getLsbD_setWidth, BitVec.getLsbD_setWidth,
    BitVec.getLsbD_setWidth, fieldBits, BitVec.getLsbD_and, BitVec.getLsbD_shiftLeft]
  by_cases h16 : i < 16
  · have hin : i - fd.shift < m := by omega
    simp [hi, h16, hin]
  · simp [BitVec.getLsbD_of_ge fd.mask i (Nat.le_of_not_lt h16)]

/-- All ones set the whole field (R113 (d)). -/
theorem fieldBits_allOnes {fd : FieldDescriptor n} (h : fd.wf = true) : fieldBits fd (BitVec.allOnes 16) = fd.mask := by
  apply BitVec.eq_of_getLsbD_eq
  intro i hi
  have hin : i - fd.shift < 16 := by omega
  rw [fieldBits_bit h _ hi, mask_bit fd h i hi, BitVec.getLsbD_allOnes, decide_eq_true hin, Bool.and_true]

/-- The old value of the field does not matter (R113 (e)). -/
theorem mergeField_congr {fd : FieldDescriptor n} {old old' : Word} (h : old &&& ~~~fd.mask = old' &&& ~~~fd.mask)
    (v : Word) : mergeField fd old v = mergeField fd old' v := by
  rw [mergeField, h, mergeField]

/-- Settles O28: each law about the field's bits, and the one about the merge. -/
theorem maskedWriteLaws : Obligations.MaskedWriteLaws := by
  intro n fd h v
  have hzero : fieldBits fd 0 = 0 := by simp [fieldBits]
  exact ⟨fieldBits_eq_shift h v, fun m hm => fieldBits_wider fd v hm, hzero, fieldBits_allOnes h,
    fun old old' hout => mergeField_congr hout v⟩

/-- Merging two fields that do not overlap keeps the first field's bits (R118). -/
theorem mergeField_mergeField {fd gd : FieldDescriptor n} (h : fd.mask &&& gd.mask = 0) (old u v : Word) :
    mergeField gd (mergeField fd old u) v = (old &&& ~~~(fd.mask ||| gd.mask)) ||| fieldBits fd u ||| fieldBits gd v := by
  apply BitVec.eq_of_getLsbD_eq
  intro i hi
  have hbit : (fd.mask.getLsbD i && gd.mask.getLsbD i) = false := by
    rw [← BitVec.getLsbD_and, h]
    exact BitVec.getLsbD_zero
  simp only [mergeField, fieldBits, BitVec.getLsbD_and, BitVec.getLsbD_or, BitVec.getLsbD_not, hi, decide_true,
    Bool.true_and]
  cases hf : fd.mask.getLsbD i with
  | false => simp
  | true =>
    rw [hf, Bool.true_and] at hbit
    simp [hbit]

/-- What a masked write leaves in its register (R111). -/
theorem readShadow_maskedWrite {fd : FieldDescriptor n} {a : Fin n} (ha : fd.reg = a) (v : Word) (s : State n) :
    (maskedWrite fd v s).readShadow a = mergeField fd (s.readShadow a) v := by
  rw [maskedWrite_eq, ha, readShadow_afterWrite_self]

/-- Two fields of one register in a well-formed `Cfg` do not overlap (R3, R27). -/
theorem masks_disjoint {c : Cfg} (hwf : c.wf = true) {f g : FieldName} (hne : f ≠ g)
    (hreg : (c.fields f).reg = (c.fields g).reg) : (c.fields f).mask &&& (c.fields g).mask = 0 := by
  obtain ⟨-, -, -, -, hapart⟩ := (Cfg_wf_iff c).1 hwf
  simpa [FieldDescriptor.apart, hreg] using hapart f g hne

/-- Settles O29: the masks do not overlap, so each merge keeps the other's field; the order only swaps the two fields. -/
theorem fieldsOfOneRegisterAreIsolated : Obligations.FieldsOfOneRegisterAreIsolated := by
  intro c f g u v s hwf hne hreg fd gd word
  have hfg : fd.mask &&& gd.mask = 0 := masks_disjoint hwf hne hreg
  have hgf : gd.mask &&& fd.mask = 0 := masks_disjoint hwf hne.symm hreg.symm
  constructor
  · rw [readShadow_maskedWrite hreg.symm, readShadow_maskedWrite rfl, mergeField_mergeField hfg]
  · rw [readShadow_maskedWrite rfl, readShadow_maskedWrite hreg.symm, mergeField_mergeField hgf, BitVec.or_comm gd.mask,
      BitVec.or_assoc, BitVec.or_comm (fieldBits gd v), ← BitVec.or_assoc]

/-- Merging the same value again changes nothing (R117). -/
theorem mergeField_idem (fd : FieldDescriptor n) (old v : Word) :
    mergeField fd (mergeField fd old v) v = mergeField fd old v :=
  mergeField_congr (mergeField_outside fd old v) v

/-- Settles O30: the second write stores, and sends, the word that the first one stored. -/
theorem sameSetterTwiceSendsTwice : Obligations.SameSetterTwiceSendsTwice := by
  intro n fd v s t u
  have ht : t = s.afterWrite fd.reg (mergeField fd (s.readShadow fd.reg) v) := maskedWrite_eq fd v s
  have hu : u = t.afterWrite fd.reg (mergeField fd (s.readShadow fd.reg) v) := by
    rw [← mergeField_idem, ← readShadow_maskedWrite rfl]
    exact maskedWrite_eq fd v t
  refine ⟨?_, frameOf fd.reg (mergeField fd (s.readShadow fd.reg) v), ?_, ?_⟩
  · rw [hu, ht]
    simp [State.afterWrite]
  · rw [ht]
    rfl
  · rw [hu, ht]
    rfl

end Sys2Proof.Machine
end

section
/-!
PROOFS. The commands `init` and `read` (spec 41_model_core.md R114, R115), and the steps that run no whole command (R122).
-/

namespace Sys2Proof.Machine

-- `read`.

/-- Initialized, `read` of an address below `N_REGS` answers the entry (R114). -/
theorem exec_read_of_lt {arg : Word} {s : State} (hi : s.initialized = true) (h : arg.toNat < 10) :
    exec (.read arg) s = .next (s.afterAnswer .ok (s.readShadow ⟨arg.toNat, h⟩)) := by
  rw [exec_eq_perform, actionOf, perform, whenInitialized_true s _ hi]
  obtain ⟨a, ha, hr⟩ | ⟨hge, -⟩ := readRegister_cases arg s
  · obtain rfl : a = ⟨arg.toNat, h⟩ := Fin.ext ha
    rw [hr]
  · exact absurd h (Nat.not_lt.2 hge)

/-- Initialized, `read` of any other address answers `ErrAddr` (R114, R203). -/
theorem exec_read_of_ge {arg : Word} {s : State} (hi : s.initialized = true) (h : 10 ≤ arg.toNat) :
    exec (.read arg) s = .next (s.afterAnswer .errAddr 0) := by
  rw [exec_eq_perform, actionOf, perform, whenInitialized_true s _ hi]
  obtain ⟨a, ha, -⟩ | ⟨-, hr⟩ := readRegister_cases arg s
  · exact absurd (ha ▸ a.isLt) (Nat.not_lt.2 h)
  · rw [hr]

/-- Settles O19: the check of R202, then the check of the address. -/
theorem readAnswersTheEntry : Obligations.ReadAnswersTheEntry := by
  intro arg s
  refine ⟨decode_eq_ok_iff.2 rfl, exec_read_of_lt, exec_read_of_ge, fun hi => ?_⟩
  have hne : actionOf cfg (.read arg) ≠ .init := nofun
  rw [exec_eq_perform, perform_uninitialized hne hi]

-- `init`.

/-- The frames of R24's words, in ascending order of address (R63, R77). -/
theorem default_frames :
    (allRegs 10).map (fun a => frameOf a defaultTable[a.val]) =
      [0x0097, 0x0297, 0x04F9, 0x06F9, 0x080A, 0x0A08, 0x0C07, 0x0E01, 0x1020, 0x1200] := by
  decide

/-- Settles O20: `init`, whole, at the words of R24. -/
theorem initLoadsAndSendsTheDefaults : Obligations.InitLoadsAndSendsTheDefaults := by
  intro arg s
  refine ⟨decode_eq_ok_iff.2 rfl, initAll cfg s, rfl, ?_⟩
  rw [initAll_eq]
  refine ⟨rfl, rfl, ?_, rfl, rfl, rfl, rfl, rfl, rfl, rfl, rfl⟩
  rw [← default_frames, List.flatMap_map]

-- Steps that run no whole command.

/-- A busy core leaves a presented command on the list, and the host goes on presenting it (R41). -/
theorem fetch_of_command_busy {n : Nat} {s : State n} {w : CmdWord} {rest : List Input}
    (hin : s.inputs = .command w :: rest) (hs : s.seq = .busy) : fetch s = (.edge (presenting w), s) := by
  simp [fetch, hin, hs]

/-- When an edge is fetched, the step is that edge (R122). -/
theorem step_of_edge {s t : State} {p : PortIn} (hf : fetch s = (.edge p, t)) : step s = .next (edge cfg p t) := by
  rw [step_eq_run, hf]
  rfl

/-- Settles O8: in each of the three cases `fetch` gives an edge. -/
theorem stepIsOtherwiseOneClockEdge : Obligations.StepIsOtherwiseOneClockEdge :=
  ⟨fun _ _ _ hin => step_of_edge (fetch_of_edge hin),
    fun _ _ _ hin hs => step_of_edge (fetch_of_command_busy hin hs),
    fun _ hin => step_of_edge (fetch_of_nothing hin)⟩

end Sys2Proof.Machine
end

section
/-!
PROOFS. The setters (spec 42_line_and_headphone.md): a command whose class stores one entry does the whole of `WritesWord`, and
a setter's new word is the merge into its row of `FIELDS`, with the row's numbers (R26, R111).
-/

namespace Sys2Proof.Machine

variable {n : Nat}

-- What a command that stores one entry does.

/-- The state after a write has the entry, the frame and the response of the write, and the rest of the old state. -/
theorem wrote_afterWrite (s : State n) (a : Fin n) (new : Word) : s.Wrote (s.afterWrite a new) a new where
  table     := rfl
  events    := rfl
  levels    := rfl
  port      := ⟨rfl, rfl, rfl⟩
  answer    := rfl
  unchanged := ⟨rfl, rfl, rfl, rfl, rfl⟩

/-- `init` is no class that stores one entry. -/
theorem Action.Stores.ne_init {s : State n} {a : Fin n} {new : Word} {act : Action n} (h : act.Stores s a new) :
    act ≠ .init := by
  rintro rfl
  exact h.elim

/-- Initialized, a command whose class stores one entry stores it, sends it and answers (R110 to R112). -/
theorem perform_of_stores {c : Cfg} {act : Action c.nRegs} {s : State c.nRegs} {a : Fin c.nRegs} {new : Word}
    (h : act.Stores s a new) (hi : s.initialized = true) : perform c act s = s.afterWrite a new := by
  cases act with
  | init => exact h.elim
  | read arg => exact h.elim
  | masked fd v =>
    obtain ⟨rfl, rfl⟩ := h
    rw [perform, whenInitialized_true s _ hi, maskedWrite_eq]
  | full b w =>
    obtain ⟨rfl, rfl⟩ := h
    rw [perform, whenInitialized_true s _ hi, fullWrite_eq]

/-- A command of the given `op` whose class stores `new (old entry) arg` writes that word (R110, R202). -/
theorem writesWord_of_stores {op : Opcode} {command : Word → Instr} {a : RegAddr} {new : Word → Word → Word}
    (hword : ∀ arg, op ++ arg = encode (command arg))
    (hstores : ∀ arg s, (actionOf cfg (command arg)).Stores s a (new (s.readShadow a) arg)) :
    WritesWord op command a new := by
  intro arg s
  have hst := hstores arg s
  refine ⟨decode_eq_ok_iff.2 (hword arg), fun hi => ⟨_, ?_, wrote_afterWrite s a _⟩, fun hi => ?_⟩
  · rw [exec_eq_perform, perform_of_stores hst hi]
  · rw [exec_eq_perform, perform_uninitialized hst.ne_init hi]

-- What a setter stores.

/-- A setter whose field is row `f` of `FIELDS` writes the merge of `arg` into that row's register (R26, R111). -/
theorem writesWord_of_field (f : FieldName) {op : Opcode} {command : Word → Instr} {new : Word → Word → Word}
    (hword : ∀ arg, op ++ arg = encode (command arg))
    (hclass : ∀ arg, actionOf cfg (command arg) = .masked (fieldTable f) arg)
    (hnew : ∀ old arg, mergeField (fieldTable f) old arg = new old arg) :
    WritesWord op command (fieldTable f).reg new := by
  refine writesWord_of_stores hword fun arg s => ?_
  rw [hclass]
  exact ⟨rfl, (hnew _ arg).symm⟩

/-- A merge with the row's shift and the complement of its mask written out (R111). -/
theorem mergeField_of_shift {fd : FieldDescriptor n} {k : Nat} {keep m : Word} (hshift : fd.shift = k) (hmask : fd.mask = m)
    (hkeep : ~~~m = keep) (old v : Word) : mergeField fd old v = (old &&& keep) ||| ((v <<< k) &&& m) := by
  rw [mergeField, fieldBits, hshift, hmask, hkeep]

/-- A field at bit 0 is merged without a shift (R111). -/
theorem mergeField_of_low {fd : FieldDescriptor n} {keep m : Word} (hshift : fd.shift = 0) (hmask : fd.mask = m)
    (hkeep : ~~~m = keep) (old v : Word) : mergeField fd old v = (old &&& keep) ||| (v &&& m) := by
  rw [mergeField_of_shift hshift hmask hkeep, BitVec.shiftLeft_zero]

/-- Settles O11: each setter with its row of `FIELDS`; the two volumes stand at bit 0. -/
theorem lineInputSettersWriteTheirField : Obligations.LineInputSettersWriteTheirField :=
  ⟨writesWord_of_field .lineInputLeftVolume (fun _ => rfl) (fun _ => rfl) (mergeField_of_low rfl rfl rfl),
    writesWord_of_field .lineInputRightVolume (fun _ => rfl) (fun _ => rfl) (mergeField_of_low rfl rfl rfl),
    writesWord_of_field .lineInputLeftSimultaneousUpdate (fun _ => rfl) (fun _ => rfl) (mergeField_of_shift rfl rfl rfl),
    writesWord_of_field .lineInputRightSimultaneousUpdate (fun _ => rfl) (fun _ => rfl) (mergeField_of_shift rfl rfl rfl),
    writesWord_of_field .lineInputLeftMute (fun _ => rfl) (fun _ => rfl) (mergeField_of_shift rfl rfl rfl),
    writesWord_of_field .lineInputRightMute (fun _ => rfl) (fun _ => rfl) (mergeField_of_shift rfl rfl rfl)⟩

/-- Settles O12: each setter with its row of `FIELDS`; the two volumes stand at bit 0. -/
theorem headphoneSettersWriteTheirField : Obligations.HeadphoneSettersWriteTheirField :=
  ⟨writesWord_of_field .headphoneLeftVolume (fun _ => rfl) (fun _ => rfl) (mergeField_of_low rfl rfl rfl),
    writesWord_of_field .headphoneRightVolume (fun _ => rfl) (fun _ => rfl) (mergeField_of_low rfl rfl rfl),
    writesWord_of_field .headphoneLeftZeroCross (fun _ => rfl) (fun _ => rfl) (mergeField_of_shift rfl rfl rfl),
    writesWord_of_field .headphoneRightZeroCross (fun _ => rfl) (fun _ => rfl) (mergeField_of_shift rfl rfl rfl),
    writesWord_of_field .headphoneLeftSimultaneousUpdate (fun _ => rfl) (fun _ => rfl) (mergeField_of_shift rfl rfl rfl),
    writesWord_of_field .headphoneRightSimultaneousUpdate (fun _ => rfl) (fun _ => rfl) (mergeField_of_shift rfl rfl rfl)⟩

end Sys2Proof.Machine
end

section
/-!
PROOFS. The setters of registers 4 and 5 (spec 43_analog_and_digital_path.md R150 to R159): each is the merge into its row of
`FIELDS`, so `writesWord_of_field` gives the whole of `WritesWord` from the row's numbers.
-/

namespace Sys2Proof.Machine

/-- Settles O13: each setter with its row of `FIELDS`; only the microphone boost stands at bit 0. -/
theorem analogPathSettersWriteTheirField : Obligations.AnalogPathSettersWriteTheirField :=
  ⟨writesWord_of_field .sidetoneEnable (fun _ => rfl) (fun _ => rfl) (mergeField_of_shift rfl rfl rfl),
    writesWord_of_field .sidetoneLevel (fun _ => rfl) (fun _ => rfl) (mergeField_of_shift rfl rfl rfl),
    writesWord_of_field .dacInputSelect (fun _ => rfl) (fun _ => rfl) (mergeField_of_shift rfl rfl rfl),
    writesWord_of_field .analogBypass (fun _ => rfl) (fun _ => rfl) (mergeField_of_shift rfl rfl rfl),
    writesWord_of_field .inputSelect (fun _ => rfl) (fun _ => rfl) (mergeField_of_shift rfl rfl rfl),
    writesWord_of_field .micMute (fun _ => rfl) (fun _ => rfl) (mergeField_of_shift rfl rfl rfl),
    writesWord_of_field .micBoost (fun _ => rfl) (fun _ => rfl) (mergeField_of_low rfl rfl rfl)⟩

/-- Settles O14: each setter with its row of `FIELDS`; only the ADC high-pass filter stands at bit 0. -/
theorem digitalPathSettersWriteTheirField : Obligations.DigitalPathSettersWriteTheirField :=
  ⟨writesWord_of_field .dacMute (fun _ => rfl) (fun _ => rfl) (mergeField_of_shift rfl rfl rfl),
    writesWord_of_field .deemphasisMode (fun _ => rfl) (fun _ => rfl) (mergeField_of_shift rfl rfl rfl),
    writesWord_of_field .adcHighpassFilter (fun _ => rfl) (fun _ => rfl) (mergeField_of_low rfl rfl rfl)⟩

end Sys2Proof.Machine
end

section
/-!
PROOFS. The power commands (spec 44_power.md R170, R171): each is one full write of its fixed word to the power register, so
`writesWord_of_stores` gives the whole of `WritesWord` from the register and the word.
-/

namespace Sys2Proof.Machine

/-- A command whose class is the full write of `w` to register `a` writes `w`, whatever the old word and the operand (R112). -/
theorem writesWord_of_full {op : Opcode} {command : Word → Instr} {a : RegAddr} {w : Word}
    (hword : ∀ arg, op ++ arg = encode (command arg))
    (hclass : ∀ arg, actionOf cfg (command arg) = .full a w) :
    WritesWord op command a (fun _ _ => w) := by
  refine writesWord_of_stores hword fun arg s => ?_
  rw [hclass]
  exact ⟨rfl, rfl⟩

/-- Settles O15: each command's class is a full write to the power register (R36), with the word that `cfg` gives. -/
theorem powerCommandsWriteTheirWord : Obligations.PowerCommandsWriteTheirWord :=
  ⟨writesWord_of_full (fun _ => rfl) (fun _ => rfl), writesWord_of_full (fun _ => rfl) (fun _ => rfl)⟩

end Sys2Proof.Machine
end

section
/-!
PROOFS. The setters of registers 7 and 8 (spec 45_interface_and_sample_rate.md R180 to R189): each is the merge into its row of
`FIELDS`, so `writesWord_of_field` gives the whole of `WritesWord` from the row's numbers.
-/

namespace Sys2Proof.Machine

/-- Settles O16: each setter with its row of `FIELDS`; only the data format stands at bit 0. -/
theorem interfaceFormatSettersWriteTheirField : Obligations.InterfaceFormatSettersWriteTheirField :=
  ⟨writesWord_of_field .interfaceMode (fun _ => rfl) (fun _ => rfl) (mergeField_of_shift rfl rfl rfl),
    writesWord_of_field .leftRightSwap (fun _ => rfl) (fun _ => rfl) (mergeField_of_shift rfl rfl rfl),
    writesWord_of_field .bitClockPhase (fun _ => rfl) (fun _ => rfl) (mergeField_of_shift rfl rfl rfl),
    writesWord_of_field .sampleWidth (fun _ => rfl) (fun _ => rfl) (mergeField_of_shift rfl rfl rfl),
    writesWord_of_field .dataFormat (fun _ => rfl) (fun _ => rfl) (mergeField_of_low rfl rfl rfl)⟩

/-- Settles O17: each setter with its row of `FIELDS`; only the clock mode stands at bit 0. -/
theorem sampleRateSettersWriteTheirField : Obligations.SampleRateSettersWriteTheirField :=
  ⟨writesWord_of_field .clockIn (fun _ => rfl) (fun _ => rfl) (mergeField_of_shift rfl rfl rfl),
    writesWord_of_field .clockOut (fun _ => rfl) (fun _ => rfl) (mergeField_of_shift rfl rfl rfl),
    writesWord_of_field .sampleRateCode (fun _ => rfl) (fun _ => rfl) (mergeField_of_shift rfl rfl rfl),
    writesWord_of_field .oversamplingRatio (fun _ => rfl) (fun _ => rfl) (mergeField_of_shift rfl rfl rfl),
    writesWord_of_field .clockMode (fun _ => rfl) (fun _ => rfl) (mergeField_of_low rfl rfl rfl)⟩

end Sys2Proof.Machine
end

section
/-!
PROOFS. The bus commands (spec 46_bus_activation.md R195, R196): each is the masked write of a constant into the one-bit field
ACT, so its new word is the merge of that constant, and the operand plays no part.
-/

namespace Sys2Proof.Machine

/-- A command that writes the constant `v` into row `f` of `FIELDS` writes the merge of `v`, whatever its operand (R111). -/
theorem writesWord_of_constant (f : FieldName) {op : Opcode} {command : Word → Instr} {v : Word} {new : Word → Word}
    (hword : ∀ arg, op ++ arg = encode (command arg))
    (hclass : ∀ arg, actionOf cfg (command arg) = .masked (fieldTable f) v)
    (hnew : ∀ old, mergeField (fieldTable f) old v = new old) :
    WritesWord op command (fieldTable f).reg (fun old _ => new old) := by
  refine writesWord_of_stores hword fun arg s => ?_
  rw [hclass]
  exact ⟨rfl, (hnew _).symm⟩

/-- The constant 1 merged into ACT sets bit 0 and keeps bits 15 to 1 (R195). -/
theorem mergeField_busActive_one (old : Word) :
    mergeField (fieldTable .busActive) old 1 = (old &&& 0xFFFE#16) ||| 0x0001#16 :=
  calc mergeField (fieldTable .busActive) old 1
    _ = (old &&& 0xFFFE#16) ||| (1#16 &&& 0x0001#16) := mergeField_of_low rfl rfl rfl old 1
    _ = (old &&& 0xFFFE#16) ||| 0x0001#16 := by rw [BitVec.and_self]

/-- The constant 0 merged into ACT clears bit 0 and keeps bits 15 to 1 (R196). -/
theorem mergeField_busActive_zero (old : Word) :
    mergeField (fieldTable .busActive) old 0 = old &&& 0xFFFE#16 :=
  calc mergeField (fieldTable .busActive) old 0
    _ = (old &&& 0xFFFE#16) ||| (0#16 &&& 0x0001#16) := mergeField_of_low rfl rfl rfl old 0
    _ = old &&& 0xFFFE#16 := by rw [BitVec.zero_and, BitVec.or_zero]

/-- Settles O18: both commands merge their constant into ACT, the only field of register 9 (R195, R196). -/
theorem busCommandsWriteTheirConstant : Obligations.BusCommandsWriteTheirConstant :=
  ⟨writesWord_of_constant .busActive (fun _ => rfl) (fun _ => rfl) mergeField_busActive_one,
    writesWord_of_constant .busActive (fun _ => rfl) (fun _ => rfl) mergeField_busActive_zero⟩

end Sys2Proof.Machine
end

section
/-!
PROOFS. The exceptions (spec 60_exceptions.md R201 to R209): the cause of each error answer, their priority, and that no step
ends in anything but a next state.
-/

namespace Sys2Proof.Machine

/-- A word in the list of R74 is answered with `ErrIllegal` before the state is looked at (R201). -/
theorem execute_of_reservedOp {c : Cfg} {w : CmdWord} (hres : reservedOp (opField w).toNat = true) (s : State c.nRegs) :
    execute c w s = s.afterAnswer .errIllegal 0 :=
  execute_of_reserved ((decode_eq_error_iff w).2 hres) s

/-- The accepting edge of a word in the list of R74 is its answer (R122, R201). -/
theorem edge_presenting_reservedOp {c : Cfg} {w : CmdWord} (hres : reservedOp (opField w).toNat = true)
    {s : State c.nRegs} (hs : s.seq = .ready) : edge c (presenting w) s = s.afterAnswer .errIllegal 0 := by
  rw [edge_accept c (presenting w) s rfl rfl hs]
  exact accept_of_reserved ((decode_eq_error_iff w).2 hres) _

/-- A command of the table answers `OK`, `ErrUninit` or `ErrAddr` (R201 to R203). -/
theorem perform_ne_errIllegal (c : Cfg) (act : Action c.nRegs) (s : State c.nRegs) :
    (perform c act s).rspStatus ≠ .errIllegal := by
  obtain ⟨-, h⟩ | ⟨-, -, h⟩ | ⟨-, arg, -, h⟩ | ⟨-, fd, v, -, h⟩ | ⟨-, a, w, -, h⟩ := perform_cases c act s <;> rw [h]
  · rw [initAll_eq]
    nofun
  · nofun
  · obtain ⟨a, -, hr⟩ | ⟨-, hr⟩ := readRegister_cases arg s <;> rw [hr] <;> nofun
  · nofun
  · nofun

/-- Settles O9: a reserved word selects no command at either level, and the class of a command never answers `ErrIllegal`. -/
theorem reservedWordAnsweredErrIllegal : Obligations.ReservedWordAnsweredErrIllegal := by
  obtain ⟨-, hcount, -⟩ := reservedOpcodesAreThoseListed
  exact ⟨fun c s w _ hres => ⟨execute_of_reservedOp hres s, edge_presenting_reservedOp hres⟩, hcount,
    fun i s => ⟨_, exec_eq_perform i s, perform_ne_errIllegal cfg (actionOf cfg i) s⟩⟩

/-- Settles O21: only `init` has the class that R202 lets through. -/
theorem nothingButInitRunsBeforeInit : Obligations.NothingButInitRunsBeforeInit := by
  intro i s hne hi
  have hact : actionOf cfg i ≠ .init := fun h => (eq_init_of_actionOf h).elim hne
  rw [exec_eq_perform, perform_uninitialized hact hi]

/-- Before `init`, a word that is neither reserved nor `init` is refused whatever its operand (R202, R206). -/
theorem execute_uninitialized {c : Cfg} {w : CmdWord} {s : State c.nRegs} (hres : reservedOp (opField w).toNat = false)
    (hop : opField w ≠ 0x01) (hi : s.initialized = false) : execute c w s = s.afterAnswer .errUninit 0 := by
  cases hd : decode w with
  | error e => exact absurd ((reserved_of_decode hd).2.symm.trans hres) (by decide)
  | ok i =>
    have hact : actionOf c i ≠ .init := by
      intro h
      obtain ⟨arg, rfl⟩ := eq_init_of_actionOf h
      exact hop (opcode_of_decode hd).symm
    rw [execute_of_command hd, perform_uninitialized hact hi]

/-- After `init`, a `read` past the table is answered with `ErrAddr` (R203). -/
theorem execute_read_past_table {c : Cfg} {w : CmdWord} {s : State c.nRegs} (hop : opField w = 0x02)
    (hi : s.initialized = true) (ha : c.nRegs ≤ (argField w).toNat) : execute c w s = s.afterAnswer .errAddr 0 := by
  have hd : decode w = .ok (.read (argField w)) := decode_of_fields hop rfl
  have hrun : execute c w s = readRegister (argField w) s := by
    rw [execute_of_command hd]
    exact whenInitialized_true s _ hi
  obtain ⟨a, hval, -⟩ | ⟨-, hread⟩ := readRegister_cases (argField w) s
  · exact absurd a.isLt (by omega)
  · exact hrun.trans hread

/-- Settles O22: each clause leaves open what the causes above it in the order exclude. -/
theorem errorPriorityIsFixed : Obligations.ErrorPriorityIsFixed :=
  fun c _ s _ =>
    ⟨fun p hrst => edge_reset c p s hrst, fun hres => execute_of_reservedOp hres s, execute_uninitialized,
      execute_read_past_table⟩

/-- Settles O10: whatever a step fetches, a command or an edge, it runs. -/
theorem everyStepHasANextState : Obligations.EveryStepHasANextState :=
  fun s => ⟨_, step_eq_run s⟩

end Sys2Proof.Machine
end

section
/-!
PROOFS. The transmitter's counter and the answer of a busy core (spec 60_exceptions.md R211, R215). The counter stays between 0
and `DELAY`, so the registers tell how many edges the running command still takes; every edge takes one off that number, and
the edge that takes off the last one answers.
-/

namespace Sys2Proof.Machine

variable {n : Nat}

-- The counter.

/-- The end of a frame leaves the counter or clears it for the next frame (R122). -/
theorem frameDone_txCnt_le (s : State n) : (frameDone s).txCnt ≤ s.txCnt := by
  obtain ⟨-, _, he⟩ | ⟨-, -, he⟩ | ⟨-, he⟩ := frameDone_cases s <;> rw [he]
  · exact Nat.zero_le _
  · exact Nat.le_refl _
  · exact Nat.le_refl _

/-- An edge of the transmitter keeps the counter at most `DELAY` (R99, R211). -/
theorem txEdge_txCnt_le {delay : Nat} {s : State n} (hc : s.txCnt ≤ delay) : (txEdge delay s).txCnt ≤ delay := by
  rw [← txEvent_txCnt s] at hc
  rw [txEdge]
  generalize txEvent s = u at hc
  obtain ⟨hne, he⟩ | ⟨-, _, he⟩ | ⟨-, -, he⟩ := txCount_cases delay u
  · have hlt : u.txCnt < delay := Nat.lt_of_le_of_ne hc hne
    rw [txCount_of_lt delay u hlt]
    exact hlt
  · rw [he]
    exact Nat.zero_le _
  · rw [he]
    exact (frameDone_txCnt_le { u with txCnt := 0 }).trans (Nat.zero_le _)

/-- An accepting edge leaves the counter or clears it (R122). -/
theorem accept_txCnt_le (c : Cfg) (w : CmdWord) (s : State c.nRegs) : (accept c w s).txCnt ≤ s.txCnt := by
  obtain ⟨st, d, he⟩ | he | ⟨-, _, _, _, -, he⟩ := accept_outcomes c w s <;> rw [he]
  · exact Nat.le_refl _
  · exact Nat.zero_le _
  · exact Nat.zero_le _

/-- Every edge keeps the counter at most `DELAY`, whatever the ports (R211). -/
theorem edge_txCnt_le {c : Cfg} (p : PortIn) {s : State c.nRegs} (hc : s.txCnt ≤ c.delay) :
    (edge c p s).txCnt ≤ c.delay := by
  obtain ⟨-, he⟩ | ⟨-, -, he⟩ | ⟨-, -, he⟩ | ⟨-, -, he⟩ := edge_cases c p s <;> rw [he]
  · exact Nat.zero_le _
  · exact hc
  · exact (accept_txCnt_le c p.cmdWord { s with rspValid := false }).trans hc
  · exact txEdge_txCnt_le (s := { s with rspValid := false }) hc

/-- Below `DELAY`, a busy edge counts one cycle (R99). -/
theorem edge_txCnt_succ {c : Cfg} {p : PortIn} {s : State c.nRegs} (hr : p.rst = false) (hs : s.seq = .busy)
    (hc : s.txCnt < c.delay) : (edge c p s).txCnt = s.txCnt + 1 := by
  have hlt : (txEvent { s with rspValid := false }).txCnt < c.delay := by simpa using hc
  rw [edge_busy c p s hr hs, txEdge, txCount_of_lt c.delay _ hlt]
  simp

/-- Settles O50: the width is the least by the logarithm's own law, and below `DELAY` the cut to it takes nothing away. -/
theorem txCounterFitsItsWidth : Obligations.TxCounterFitsItsWidth :=
  fun c _ => ⟨cntWidth_le_iff c.delay, fun p _ hc => edge_txCnt_le p hc, fun _ _ hr hs hc => edge_txCnt_succ hr hs hc⟩

-- How many edges the running command still takes.

/-- The frames that follow the running one: those of the registers that `init` has not reached (R63). -/
def State.framesAfter (s : State n) : Nat := if s.isInit then n - 1 - s.initIdx.val else 0

theorem framesAfter_of_init {s : State n} (hi : s.isInit = true) : s.framesAfter = n - 1 - s.initIdx.val := if_pos hi

/-- A writing command has one frame (R123). -/
theorem framesAfter_of_write {s : State n} (hi : s.isInit = false) : s.framesAfter = 0 := by
  rw [State.framesAfter, hi, if_neg Bool.false_ne_true]

/-- The steps that follow the current one, in this frame and in those after it (R99). -/
def State.stepsAfter (s : State n) : Nat := s.framesAfter * 50 + (49 - s.txStep.val)

/-- At the start of a frame of `init`, 49 steps of it follow, and the frames of the registers after its own (R122). -/
theorem stepsAfter_load_init {s : State n} (hi : s.isInit = true) (a b : Fin n) (w : Word) :
    (load a w { s with initIdx := b }).stepsAfter = (n - 1 - b.val) * 50 + 49 := by
  rw [State.stepsAfter, framesAfter_of_init (by exact hi)]
  rfl

/-- The edges up to and with the one of the response: each step has `DELAY + 1`, of which the counter has counted some of the
current step's (R98). -/
def State.edgesLeft (delay : Nat) (s : State n) : Nat := s.stepsAfter * (delay + 1) + (delay + 1 - s.txCnt)

/-- A step more is `DELAY + 1` edges more: a state in the last cycle of its step has one edge more left than a state at the
start of the next step. -/
theorem edgesLeft_of_last_cycle {delay : Nat} {s t : State n} (hs : s.txCnt = delay) (ht : t.txCnt = 0)
    (hsteps : s.stepsAfter = t.stepsAfter + 1) : s.edgesLeft delay = t.edgesLeft delay + 1 := by
  rw [State.edgesLeft, State.edgesLeft, hs, ht, hsteps, Nat.succ_mul]
  omega

/-- The transmitter has gone from `s` one edge on: it is busy and has one edge less to go, or it has answered `(OK, 0x0000)`
and `s` had no other edge to go. -/
def State.OneEdgeOn (delay : Nat) (s t : State n) : Prop :=
  (t.seq = .busy ∧ t.responses = s.responses ∧ s.edgesLeft delay = t.edgesLeft delay + 1) ∨
  (t.seq = .ready ∧ t.responses = s.responses ++ [⟨.ok, 0⟩] ∧ s.edgesLeft delay = 1)

/-- The last cycle of a frame goes on to the next frame of `init` or answers (R122). -/
theorem frameDone_oneEdgeOn {delay : Nat} {s : State n} (hc : s.txCnt = delay) (hk : s.txStep.val = 49) :
    s.OneEdgeOn delay (frameDone { s with txCnt := 0 }) := by
  have hlast (h : s.framesAfter = 0) : s.edgesLeft delay = 1 := by
    rw [State.edgesLeft, State.stepsAfter, h, hk, hc]
    omega
  obtain ⟨hi, hlt, he⟩ | ⟨hi, hend, he⟩ | ⟨hi, he⟩ := frameDone_cases { s with txCnt := 0 } <;> rw [he]
  · have hnext : s.initIdx.val + 1 < n := hlt
    refine .inl ⟨rfl, rfl, edgesLeft_of_last_cycle hc rfl ?_⟩
    rw [stepsAfter_load_init hi, State.stepsAfter, framesAfter_of_init (s := s) hi, hk]
    show _ = (n - 1 - (s.initIdx.val + 1)) * 50 + 49 + 1
    omega
  · have hidx : s.initIdx.val + 1 = n := hend
    refine .inr ⟨rfl, rfl, hlast ?_⟩
    rw [framesAfter_of_init (s := s) hi]
    omega
  · exact .inr ⟨rfl, rfl, hlast (framesAfter_of_write hi)⟩

/-- The counter part of an edge goes one edge on: inside the step, to the next step, or to the end of the frame (R99). -/
theorem txCount_oneEdgeOn {delay : Nat} {s : State n} (hs : s.seq = .busy) (hc : s.txCnt ≤ delay) :
    s.OneEdgeOn delay (txCount delay s) := by
  obtain ⟨hne, -⟩ | ⟨hend, hk, he⟩ | ⟨hend, hk, he⟩ := txCount_cases delay s
  · have hlt : s.txCnt < delay := Nat.lt_of_le_of_ne hc hne
    rw [txCount_of_lt delay s hlt]
    refine .inl ⟨hs, rfl, ?_⟩
    show s.stepsAfter * (delay + 1) + _ = s.stepsAfter * (delay + 1) + (delay + 1 - (s.txCnt + 1)) + 1
    omega
  · rw [he]
    refine .inl ⟨hs, rfl, edgesLeft_of_last_cycle hend rfl ?_⟩
    show s.framesAfter * 50 + _ = s.framesAfter * 50 + (49 - (s.txStep.val + 1)) + 1
    omega
  · rw [he]
    exact frameDone_oneEdgeOn hend hk

/-- The event part of an edge leaves the sequencer and the registers that tell how far the command is (R94, R99). -/
theorem txEvent_keeps (delay : Nat) (s : State n) :
    (txEvent s).seq = s.seq ∧ (txEvent s).edgesLeft delay = s.edgesLeft delay := by
  obtain ⟨-, he⟩ | ⟨-, he⟩ := txEvent_cases s <;> rw [he] <;> exact ⟨rfl, rfl⟩

/-- An idle edge of a busy core goes one edge on (R122). -/
theorem edge_oneEdgeOn {c : Cfg} {s : State c.nRegs} (hs : s.seq = .busy) (hc : s.txCnt ≤ c.delay) :
    s.OneEdgeOn c.delay (edge c idlePorts s) := by
  obtain ⟨hseq, hleft⟩ := txEvent_keeps c.delay { s with rspValid := false }
  have h := txCount_oneEdgeOn (hseq.trans hs) ((txEvent_txCnt _).trans_le hc)
  rw [State.OneEdgeOn, hleft, txEvent_responses] at h
  rw [edge_idle_busy c s hs]
  exact h

/-- A busy core is ready after the edges it has left, with one response more (R215), by induction on their number. -/
theorem idleEdges_edgesLeft {c : Cfg} {s : State c.nRegs} (hs : s.seq = .busy) (hc : s.txCnt ≤ c.delay) :
    (idleEdges c (s.edgesLeft c.delay) s).seq = .ready ∧
    (idleEdges c (s.edgesLeft c.delay) s).responses = s.responses ++ [⟨.ok, 0⟩] := by
  generalize hm : s.edgesLeft c.delay = m
  induction m generalizing s with
  | zero =>
    rw [State.edgesLeft] at hm
    omega
  | succ m ih =>
    rw [idleEdges_succ]
    obtain ⟨hbusy, hnone, hleft⟩ | ⟨hready, hone, hleft⟩ := edge_oneEdgeOn hs hc
    · rw [← hnone]
      exact ih hbusy (edge_txCnt_le idlePorts hc) (by omega)
    · obtain rfl : m = 0 := by omega
      exact ⟨hready, hone⟩

/-- No command has more edges left than `init` has at its accepting edge (R123). -/
theorem edgesLeft_le (delay : Nat) (s : State n) : s.edgesLeft delay ≤ n * 50 * (delay + 1) := by
  have hidx := s.initIdx.isLt
  have hframes : s.framesAfter + 1 ≤ n := by
    rw [State.framesAfter]
    split <;> omega
  have hsteps : s.stepsAfter + 1 ≤ n * 50 := by
    rw [State.stepsAfter]
    omega
  calc s.edgesLeft delay
    _ ≤ s.stepsAfter * (delay + 1) + (delay + 1) := Nat.add_le_add_left (Nat.sub_le _ _) _
    _ = (s.stepsAfter + 1) * (delay + 1) := (Nat.succ_mul _ _).symm
    _ ≤ n * 50 * (delay + 1) := Nat.mul_le_mul_right _ hsteps

/-- Settles O48: the invariant bounds the counter, and then the registers tell how many edges are left. -/
theorem everyAcceptedCommandIsAnswered : Obligations.EveryAcceptedCommandIsAnswered :=
  fun s hinv hs => ⟨s.edgesLeft cfg.delay, edgesLeft_le cfg.delay s, idleEdges_edgesLeft hs hinv.count_bound⟩

end Sys2Proof.Machine
end

section
/-!
PROOFS. Reset (spec 70_reset_and_hazards.md R230 to R232): what a listener on the lines makes of a reset edge, between frames
and in the middle of one.
-/

namespace Sys2Proof.Machine

/-- A listener has a new frame only when `CS` rises (R97). -/
theorem Listener.hear_frames {e : LineEvent} (he : e ≠ .cs true) (l : Listener) : (l.hear e).frames = l.frames := by
  cases e with
  | cs b =>
    cases b with
    | false => rfl
    | true => exact absurd rfl he
  | sclk b =>
    cases b with
    | false => rfl
    | true =>
      unfold Listener.hear
      dsimp only
      split <;> rfl
  | sdat b => rfl
  | reset => rfl

/-- Events among which `CS` does not rise complete no frame (R97). -/
theorem framesSent_append_of_no_rise (es : List LineEvent) {fs : List LineEvent} (h : .cs true ∉ fs) :
    framesSent (es ++ fs) = framesSent es := by
  rw [framesSent, framesSent, List.foldl_append]
  generalize es.foldl Listener.hear Listener.start = l
  induction fs generalizing l with
  | nil => rfl
  | cons e fs ih =>
    obtain ⟨he, hfs⟩ := List.ne_and_not_mem_of_not_mem_cons h
    rw [List.foldl_cons, ih hfs, Listener.hear_frames he.symm]

/-- Settles O37: the values are those that `resetEdge` takes from R47, and its event is no rise of `CS`. -/
theorem resetEdgeRestoresTheTable : Obligations.ResetEdgeRestoresTheTable := by
  intro c p s _ hrst t
  have ht : t = resetEdge c s := edge_reset c p s hrst
  rw [ht]
  exact ⟨rfl, rfl, rfl, rfl, rfl, rfl, rfl, rfl, rfl, rfl, rfl, rfl, framesSent_append_of_no_rise s.trace (by simp)⟩

-- A frame that is not at its end.

/-- `CS` does not rise before the last event of a frame (R92). -/
theorem no_rise_in_frameTrace_take (f : Frame) {k : Nat} (hk : k ≤ 49) : .cs true ∉ (frameTrace f).take k := by
  rw [frameTrace_eq_map, ← List.map_take, List.take_range, Nat.min_eq_left (by omega)]
  intro hmem
  obtain ⟨j, hj, hrise⟩ := List.mem_map.1 hmem
  obtain rfl | hpos := Nat.eq_zero_or_pos j
  · cases hrise
  · have hj' : j < k := List.mem_range.1 hj
    have hkeep := lineEventAt_keeps_cs f hpos (by omega) ⟨false, false, false⟩
    rw [hrise] at hkeep
    cases hkeep

/-- From `s` to `t` the core has gone `k` steps into the frame `f`: the lines have taken its first `k` events, and neither a
response nor a whole frame has come (R92, R123). -/
structure State.IntoFrame {n : Nat} (s t : State n) (f : Frame) (k : Nat) : Prop where
  step       : t.txStep.val = k
  lines      : t.lines = ((List.range k).map (lineEventAt f)).foldl (fun l e => e.apply l) s.lines
  unanswered : t.responses = s.responses
  unheard    : framesSent t.trace = framesSent s.trace

/-- After `k` whole steps of a loaded frame, `k < 50`, the core is `k` steps into it (R98). -/
theorem intoFrame_load (c : Cfg) (a : Fin c.nRegs) (w : Word) (s : State c.nRegs) {k : Nat} (hk : k < 50) :
    s.IntoFrame (idleEdges c (k * (c.delay + 1)) (load a w s)) (frameOf a w) k := by
  obtain ⟨-, -, -, hstep, htrace⟩ := idleEdges_load_steps c a w s k hk
  have hrun := stepsRun c (load a w s) rfl rfl rfl k hk
  rw [emitAll_eq] at hrun
  refine ⟨hstep, ?_, ?_, ?_⟩
  · rw [hrun]
    rfl
  · rw [hrun]
    rfl
  · rw [htrace]
    exact framesSent_append_of_no_rise s.trace (no_rise_in_frameTrace_take _ (Nat.le_of_lt_succ hk))

/-- After the accepting edge of a masked write and `k` whole steps, the core is `k` steps into the frame of the merged word
(R111, R122). -/
theorem intoFrame_masked {c : Cfg} {w : CmdWord} {i : Instr} {fd : FieldDescriptor c.nRegs} {v : Word}
    (hd : decode w = .ok i) (hact : actionOf c i = .masked fd v) {s : State c.nRegs} (hs : s.seq = .ready)
    (hi : s.initialized = true) {k : Nat} (hk : k < 50) :
    s.IntoFrame (idleEdges c (k * (c.delay + 1)) (edge c (presenting w) s))
      (frameOf fd.reg (mergeField fd (s.readShadow fd.reg) v)) k := by
  have haccept : edge c (presenting w) s =
      startWrite fd.reg (mergeField fd (s.readShadow fd.reg) v) { s with rspValid := false } := by
    rw [edge_accept c (presenting w) s rfl rfl hs]
    show accept c w _ = _
    rw [accept_of_command hd, hact]
    exact whenInitialized_true { s with rspValid := false } _ hi
  rw [haccept, startWrite]
  obtain ⟨hstep, hlines, hresp, hframes⟩ := intoFrame_load c fd.reg (mergeField fd (s.readShadow fd.reg) v)
    (({ s with rspValid := false, isInit := false } : State c.nRegs).writeShadow fd.reg
      (mergeField fd (s.readShadow fd.reg) v)) hk
  exact ⟨hstep, hlines, hresp, hframes⟩

/-- A whole `init` sets the flag (R115). -/
theorem execute_init_initialized {c : Cfg} {w : CmdWord} {arg : Word} (hd : decode w = .ok (.init arg))
    (s : State c.nRegs) : (execute c w s).initialized = true := by
  rw [execute_of_command hd]
  exact congrArg State.initialized (initAll_eq c s)

/-- Settles O38: nine steps into the frame of `bus_enable` the third pulse is high; the reset edge then does what it does from
any state, and `read` is refused as in any uninitialized state. -/
theorem resetTearsARunningFrame : Obligations.ResetTearsARunningFrame := by
  unfold Obligations.ResetTearsARunningFrame
  intro c s t u
  have hwf : c.wf = true := instanceCfg_wf 0 0
  obtain ⟨hseq, -, -⟩ := execute_answers c 0x010000 State.reset
  have hdecInit : decode 0x010000 = .ok (.init 0) := decode_eq_ok_iff.2 rfl
  have hdecEnable : decode 0x480000 = .ok (.busEnable 0) := decode_eq_ok_iff.2 rfl
  have hinit : s.initialized = true := execute_init_initialized (c := c) hdecInit State.reset
  have hinto : State.IntoFrame s t _ 9 := intoFrame_masked (c := c) (k := 9) hdecEnable rfl hseq hinit (by decide)
  obtain ⟨huinit, huseq, -, -, -, -, -, hulines, -, -, -, huresp, huframes⟩ :=
    resetEdgeRestoresTheTable c ⟨true, false, 0⟩ t hwf rfl
  have hread : execute c 0x020009 u = u.afterAnswer .errUninit 0 :=
    execute_uninitialized (by decide) (by decide) huinit
  refine ⟨?_, ?_, Fin.ext hinto.step, hulines, huinit, huseq, huresp.trans hinto.unanswered,
    huframes.trans hinto.unheard, ?_⟩
  · rw [hinto.lines]
    rfl
  · rw [hinto.lines]
    rfl
  · rw [hread]
    rfl

end Sys2Proof.Machine
end
